-- ==== Sys2Proof/Word.lean ====
section
/-! DEFINITION. The word types of the block: bytes, host register indices and host operation words. -/

namespace Sys2Proof

/-- A byte, 0 to 255, unsigned (R5). -/
abbrev Byte := BitVec 8

/-- A host register index, 0x000 to 0x3FF (R29). -/
abbrev HostIndex := BitVec 10

/-- A host operation word HOSTOP: bit 18 direction, bits 17:8 index, bits 7:0 data (R63). -/
abbrev HostWord := BitVec 19

end Sys2Proof
end

