-- ==== Sys2Proof/Config.lean ====
section
/-! DEFINITION. The parameters of R7. TRANSPORT has no constant here: its answers are the draws that State holds
(log entries 1 and 16). -/

namespace Sys2Proof.Config

/-- MAXP, the largest parameter count in either direction (R6). -/
abbrev maxParams : Nat := 253

/-- The header read count (R7). -/
abbrev headerCount : Nat := 4

/-- The broadcast id (R7, R53). -/
abbrev broadcastId : Byte := 0xFE

/-- One byte of the frame marker 0xFF 0xFF (R7). -/
abbrev marker : Byte := 0xFF

/-- REG_BASE, the platform address of the register window: OPEN (R7, R30), so it has no value here. -/
opaque regBase : Nat

/-- The platform address of host index `j`, one byte per index (R30). -/
def platformAddress (j : HostIndex) : Nat := regBase + j.toNat

end Sys2Proof.Config
end

