-- ==== Sys2Proof/Machine/Checksum.lean ====
section
/-! DEFINITION. The checksum_validator (R67 to R72): combinational, no state. -/

namespace Sys2Proof.Machine

/-- The sum of the bytes as an unbounded natural number (00_scope.md, notation). -/
def byteSum (payload : List Byte) : Nat :=
  (payload.map BitVec.toNat).sum

/-- CHECKSUM(payload) = (~sum(payload)) & 0xFF (R67). -/
def checksum (payload : List Byte) : Byte :=
  ~~~ BitVec.ofNat 8 (byteSum payload)

/-- VALIDATE(payload, c), 8-bit equality (R71). -/
def checksumValid (payload : List Byte) (c : Byte) : Bool :=
  checksum payload == c

end Sys2Proof.Machine
end

