-- ==== Sys2Proof/Machine/Frame.lean ====
section
/-! DEFINITION. The layout of packets (R50 to R54) and BuildFrame (R74). -/

namespace Sys2Proof.Machine

/-- The bytes of a packet: both markers, id, length byte, and what follows it (R50, R54). -/
def packetBytes (id len : Byte) (body : List Byte) : List Byte :=
  Config.marker :: Config.marker :: id :: len :: body

/-- The instruction byte (outgoing) or error byte (incoming), the first of the body (R50, R54). -/
def bodyCode (body : List Byte) : Byte :=
  body.headD 0

/-- The parameters: the body less its first and its last byte (R50, R54). -/
def bodyParams (body : List Byte) : List Byte :=
  (body.drop 1).dropLast

/-- The checksum byte, the last of the body (R50, R54). -/
def bodyChecksum (body : List Byte) : Byte :=
  body.getLastD 0

/-- The bytes a packet's checksum covers, id through the last parameter (R52). -/
def coveredBytes (id len : Byte) (body : List Byte) : List Byte :=
  [id, len, bodyCode body] ++ bodyParams body

/-- The length byte for a parameter count, zext_8(n + 2) (R51). -/
def lengthByte (n : Nat) : Byte :=
  BitVec.ofNat 8 (n + 2)

/-- The body of an outgoing packet: instruction, parameters, checksum (R50). -/
def outgoingBody (id instr : Byte) (p : List Byte) : List Byte :=
  instr :: p ++ [checksum ([id, lengthByte p.length, instr] ++ p)]

/-- BuildFrame(id, instr, p) (R74). -/
def buildFrame (id instr : Byte) (p : List Byte) : List Byte :=
  packetBytes id (lengthByte p.length) (outgoingBody id instr p)

end Sys2Proof.Machine
end

