-- ==== Sys2Proof/Syntax.lean ====
section
/-! DEFINITION. The instructions, one constructor per row of spec/opcode_table.json, the three encodings they are read
from (R48, R50 to R54, R63), and the host registers by name (R30). -/

namespace Sys2Proof

/-- One constructor per row of spec/opcode_table.json (R65). A packet is split as R66 says, on its byte 3 alone: `body` is
what follows byte 3, the instruction or error byte first, then the parameters, then the checksum byte (R51, R54). -/
inductive Instr where
  /-- SEND, the CTRL code 0x01 (R48, R73). -/
  | send
  /-- BROADCAST, the CTRL code 0x02 (R48, R87). -/
  | broadcast
  /-- PKT_INSTRUCTION, the outgoing packet FF FF id len body (R50). -/
  | pktInstruction (id len : Byte) (body : List Byte)
  /-- PKT_BROADCAST, the outgoing packet FF FF FE len body (R53). -/
  | pktBroadcast (len : Byte) (body : List Byte)
  /-- PKT_STATUS, the incoming packet FF FF id len body (R54). -/
  | pktStatus (id len : Byte) (body : List Byte)
  /-- HOST_WR, the host writes `v` to register `j` (R31, R63). -/
  | hostWr (j : HostIndex) (v : Byte)
  /-- HOST_RD, the host reads register `j` (R32, R33, R63). -/
  | hostRd (j : HostIndex)
  deriving DecidableEq, Repr

/-- What an instruction is read from. The direction of a packet is not in its bytes (R65), so it is in the constructor. -/
inductive Code where
  /-- A byte written to CTRL (R48). -/
  | command (v : Byte)
  /-- A host operation word (R63). -/
  | hostOp (w : HostWord)
  /-- The bytes of a packet the block sends, first byte first (R36). -/
  | outgoing (bytes : List Byte)
  /-- The bytes of a packet the block receives, first byte first (R36). -/
  | incoming (bytes : List Byte)
  deriving DecidableEq, Repr

/-- The host registers by name (R30). -/
inductive HostReg where
  | ctrl
  | status
  | cmdId
  | cmdInstr
  | cmdNparams
  | rspId
  | rspError
  | rspNparams
  | txParam (i : Fin Config.maxParams)
  | rxParam (i : Fin Config.maxParams)
  /-- The indices 0x008-0x0FF, 0x1FD-0x1FF and 0x2FD-0x3FF. -/
  | reserved
  deriving DecidableEq, Repr

end Sys2Proof
end

