-- ==== Sys2Proof/Decode.lean ====
section
/-! DEFINITION. The decoder, total on every code and rejecting by name (R48, R50 to R54, R63, R65), the encoder, and the
reading of a word numbered as spec/opcode_table.json numbers it. -/

namespace Sys2Proof

/-- Why a code is no instruction. -/
inductive DecodeError where
  /-- A CTRL value other than 0x01 and 0x02 (R48, R60). -/
  | reservedCommand (v : Byte)
  /-- An RD word whose data bits are not 0 (R63). -/
  | badHostWord
  /-- A packet of fewer than 4 bytes (R61). -/
  | truncatedHeader
  /-- Byte 0 or byte 1 of a packet is not 0xFF (R50, R54). -/
  | badMarker
  /-- An outgoing packet with id 0xFF, which is never transmitted as an id (R55). -/
  | reservedId
  /-- A packet that does not hold as many bytes after byte 3 as byte 3 says (R61, R66). -/
  | badLength
  deriving DecidableEq, Repr

/-- Bit 18 of a host operation word: 1 for a write (R63). -/
def hostOpIsWrite (w : HostWord) : Bool :=
  w.getLsbD 18

/-- Bits 17:8 of a host operation word: the register index (R63). -/
def hostOpIndex (w : HostWord) : HostIndex :=
  w.extractLsb' 8 10

/-- Bits 7:0 of a host operation word: the byte written (R63). -/
def hostOpData (w : HostWord) : Byte :=
  w.extractLsb' 0 8

/-- The whole byte is matched, mask 0xFF (R48). -/
def decodeCommand (v : Byte) : Except DecodeError Instr :=
  if v = 0x01 then .ok .send
  else if v = 0x02 then .ok .broadcast
  else .error (.reservedCommand v)

/-- HOSTOP (R63). -/
def decodeHostOp (w : HostWord) : Except DecodeError Instr :=
  if hostOpIsWrite w then .ok (.hostWr (hostOpIndex w) (hostOpData w))
  else if hostOpData w = 0 then .ok (.hostRd (hostOpIndex w))
  else .error .badHostWord

/-- The id, length byte and body of a packet, split on byte 3 alone (R61, R66). -/
def splitPacket (bytes : List Byte) : Except DecodeError (Byte × Byte × List Byte) :=
  match bytes with
  | m0 :: m1 :: id :: len :: body =>
    if m0 = Config.marker ∧ m1 = Config.marker then
      if body.length = len.toNat then .ok (id, len, body) else .error .badLength
    else .error .badMarker
  | _ => .error .truncatedHeader

/-- An outgoing packet: the id tells PKT_BROADCAST from PKT_INSTRUCTION, and id 0xFF is neither (R55, R65). -/
def decodeOutgoing (bytes : List Byte) : Except DecodeError Instr :=
  match splitPacket bytes with
  | .error e => .error e
  | .ok (id, len, body) =>
    if id = Config.broadcastId then .ok (.pktBroadcast len body)
    else if id = 0xFF then .error .reservedId
    else .ok (.pktInstruction id len body)

/-- An incoming packet: any id (R55, R65). -/
def decodeIncoming (bytes : List Byte) : Except DecodeError Instr :=
  match splitPacket bytes with
  | .error e => .error e
  | .ok (id, len, body) => .ok (.pktStatus id len body)

/-- The decoder. -/
def decode : Code → Except DecodeError Instr
  | .command v => decodeCommand v
  | .hostOp w => decodeHostOp w
  | .outgoing bytes => decodeOutgoing bytes
  | .incoming bytes => decodeIncoming bytes

/-- A HOSTOP word from its three fields (R63). -/
def encodeHostOp (write : Bool) (j : HostIndex) (v : Byte) : HostWord :=
  BitVec.ofBool write ++ j ++ v

/-- The encoder, from the same tables: R48, R50, R53, R54, R63. -/
def encode : Instr → Code
  | .send => .command 0x01
  | .broadcast => .command 0x02
  | .pktInstruction id len body => .outgoing (Machine.packetBytes id len body)
  | .pktBroadcast len body => .outgoing (Machine.packetBytes Config.broadcastId len body)
  | .pktStatus id len body => .incoming (Machine.packetBytes id len body)
  | .hostWr j v => .hostOp (encodeHostOp true j v)
  | .hostRd j => .hostOp (encodeHostOp false j 0)

/-- Byte `k` of a packet's first 32-bit word, byte 0 in bits 31:24 (R65). -/
def tableByte (w k : Nat) : Byte :=
  BitVec.ofNat 8 (w / 2 ^ (24 - 8 * k))

/-- The packet whose first word is `w`, every byte after it 0, as many as its byte 3 says (R66). A word does not say which
way it goes (R65): id 0xFF can only be incoming, any other is read as the outgoing format (log entry 14). -/
def tablePacket (w : Nat) : Code :=
  let bytes := tableByte w 0 :: tableByte w 1 :: tableByte w 2 :: tableByte w 3 ::
    List.replicate (tableByte w 3).toNat 0
  if tableByte w 2 = 0xFF then .incoming bytes else .outgoing bytes

/-- The code a word of spec/opcode_table.json stands for: a CTRL byte, a HOSTOP word (19 bits, in 3 whole bytes) or the
first four bytes of a packet. A word too large for its row stands for none. -/
def tableCode (nbits w : Nat) : Option Code :=
  if nbits ≤ 8 then (if w < 2 ^ 8 then some (.command (BitVec.ofNat 8 w)) else none)
  else if nbits ≤ 24 then (if w < 2 ^ 19 then some (.hostOp (BitVec.ofNat 19 w)) else none)
  else if w < 2 ^ 32 then some (tablePacket w) else none

/-- The instruction the decoder reads from a word numbered as spec/opcode_table.json numbers it. -/
def decodeTableWord (nbits w : Nat) : Option Instr :=
  (tableCode nbits w).bind fun c => (decode c).toOption

end Sys2Proof
end

