-- ==== Sys2Proof/Machine/State.lean ====
section
/-! DEFINITION. The state of the block (10_state.md), the moves of the agents around it (R8), the reasons a step stops, and
the state after reset (R26). -/

namespace Sys2Proof.Machine

/-- The sequencer's state, which takes the place of a program counter (R10). -/
inductive Phase where
  /-- No exchange is in flight. -/
  | idle
  /-- The frame is presented and the write has not been answered. -/
  | txWait
  /-- A 4-byte receive is outstanding. -/
  | hdrWait
  /-- A receive of `latLen` bytes is outstanding. -/
  | bodyWait
  deriving DecidableEq, Repr

/-- Which command owns the exchange in flight (R11). -/
inductive Kind where
  | unicast
  | bcast
  deriving DecidableEq, Repr

/-- The outcome of the most recent command to finish (R20). -/
inductive Result where
  | none
  | ok
  | commError
  | transportFault
  deriving DecidableEq, Repr

/-- The model refusals of R96: host contract violations. Each sets the mark `refused` (R27). -/
inductive RefuseReason where
  /-- CTRL written while BUSY = 1 (R48). -/
  | commandWhileBusy
  /-- CTRL written with a value other than 0x01 and 0x02 (R48). -/
  | reservedCommand (v : Byte)
  /-- SEND with CMD_ID at least 0xFE (R73). -/
  | sendBadId (id : Byte)
  /-- A command with CMD_NPARAMS over 253 (R73, R87). -/
  | tooManyParams (n : Byte)
  /-- A command that uses the unwritten entry TX_PARAM[i] (R73, R87). -/
  | unwrittenTxParam (i : Nat)
  /-- A reserved index, a write to a read-only register, a read of CTRL (R34). -/
  | badAccess (j : HostIndex)
  /-- A malformed HOSTOP word (R63). -/
  | badHostWord
  deriving DecidableEq, Repr

/-- The model fault of R96: a host read with no defined value. It sets the mark `faulted` (R27). -/
inductive ReadFault where
  /-- A host read of the unwritten entry TX_PARAM[i] (R32). -/
  | unwrittenTxParam (i : Nat)
  deriving DecidableEq, Repr

/-- What the block answered the host's most recent access. The model's own (log entry 4): it is where the value of a host
read can be seen. -/
inductive HostReply where
  /-- The host has made no access yet. -/
  | noAccess
  /-- A write was performed, or a command accepted. -/
  | done
  /-- A read returned this byte. -/
  | value (v : Byte)
  /-- The access has no meaning under the spec. -/
  | refusal (r : RefuseReason)
  /-- The read has no defined value. -/
  | noValue (f : ReadFault)
  deriving DecidableEq, Repr

/-- A transport request (R37). -/
inductive Request where
  /-- TxSend(frame) (R38). -/
  | txSend (frame : List Byte)
  /-- RxRecv(k) (R39). -/
  | rxRecv (k : Nat)
  deriving DecidableEq, Repr

/-- A transport answer (R38, R39). -/
inductive Answer where
  /-- The write is complete; an answer to TxSend. -/
  | ok
  /-- The request failed. -/
  | fail
  /-- These bytes; an answer to RxRecv. -/
  | data (bytes : List Byte)
  deriving DecidableEq, Repr

/-- One move of an agent around the block (R8). -/
inductive Input where
  /-- The host performs the operation of this HOSTOP word (R63). -/
  | hostOp (w : HostWord)
  /-- The host writes this byte to CTRL (R48). It does what the HOSTOP word of WR CTRL does (log entry 15). -/
  | command (v : Byte)
  /-- The transport answers the outstanding request (R40). -/
  | answer (a : Answer)
  /-- The transport answers a request that reset withdrew (R109). -/
  | lateAnswer (a : Answer)
  /-- Reset (R108). -/
  | reset
  deriving DecidableEq, Repr

/-- Why a step stops. Each is an answer the transport contract excludes (R40, "assumed never to occur"): a scripted answer
that is no move of the transport. Stopping is safe: the spec gives no behaviour to go on with (log entry 10). -/
inductive Fault where
  /-- An answer, or the completed write of a frame, while no request is outstanding (for the write of a frame: while no
  TxSend is). Raised by `deliver` and by the meanings of PKT_INSTRUCTION and PKT_BROADCAST. Safe. -/
  | unsolicitedAnswer
  /-- Data for a TxSend, or `ok` for an RxRecv. Raised by `deliver`. Safe. -/
  | wrongAnswer
  /-- More bytes than the outstanding RxRecv asked for. Raised by `deliver`. Safe. -/
  | overlongAnswer
  /-- The transport wrote a frame other than the one it was given. Raised by the meanings of PKT_INSTRUCTION and
  PKT_BROADCAST. Safe. -/
  | foreignFrame
  deriving DecidableEq, Repr

/-- Why an instruction has no meaning in the model. -/
inductive Refusal where
  /-- An instruction with no meaning yet; only arms of `exec` answer it, and none does now. Safe. -/
  | notModelled (mnemonic : String)
  deriving DecidableEq, Repr

/-- The state. The first group is the spec's (R10 to R23), then the marks (R27), then the model's own fields. -/
structure State where
  /-- R10. -/
  phase : Phase
  /-- R11. -/
  kind : Kind
  /-- `tx_frame`, first byte first (R12). -/
  txFrame : List Byte
  /-- `lat_id` (R13). -/
  latId : Byte
  /-- `lat_len` (R13). -/
  latLen : Byte
  /-- CMD_ID (R14). -/
  cmdId : Byte
  /-- CMD_INSTR (R17). -/
  cmdInstr : Byte
  /-- CMD_NPARAMS (R16). -/
  cmdNparams : Byte
  /-- TX_PARAM; `none` is the spec's "unwritten" (R15). -/
  txParam : Vector (Option Byte) Config.maxParams
  /-- `s.result` (R20). -/
  result : Result
  /-- `s.rsp_valid` (R21). -/
  rspValid : Bool
  /-- `s.rsp_id` (R22). -/
  rspId : Byte
  /-- `s.rsp_error` (R22). -/
  rspError : Byte
  /-- `s.rsp_nparams` (R22). -/
  rspNparams : Byte
  /-- `s.rx_param` (R23). -/
  rxParam : Vector Byte Config.maxParams
  /-- The mark `refused` (R27). -/
  refused : Bool
  /-- The mark `faulted` (R27). -/
  faulted : Bool
  /-- The model's own: what the block answered the host's latest access (log entry 4). -/
  hostReply : HostReply
  /-- The model's own: the agents' next moves, oldest first (log entry 1). -/
  inputs : List Input
  deriving DecidableEq, Repr

/-- The machine right after reset (R26). DESIGN CHOICE for `kind`, `latId`, `latLen` (log entry 5), for the stored result
fields, which read 0x00 (log entry 6), for the marks (log entry 19) and for the model's own fields (log entries 1, 4). -/
def State.reset : State where
  phase := .idle
  kind := .unicast
  txFrame := []
  latId := 0
  latLen := 0
  cmdId := 0
  cmdInstr := 0
  cmdNparams := 0
  txParam := Vector.replicate Config.maxParams none
  result := .none
  rspValid := false
  rspId := 0
  rspError := 0
  rspNparams := 0
  rxParam := Vector.replicate Config.maxParams 0
  refused := false
  faulted := false
  hostReply := .noAccess
  inputs := []

end Sys2Proof.Machine
end

