-- ==== Sys2Proof/Machine/Flags.lean ====
section
/-! DEFINITION. STATUS, the block's only flags (R19, R20). -/

namespace Sys2Proof.Machine

/-- The code of RESULT (R20). -/
def Result.code : Result → BitVec 2
  | .none => 0
  | .ok => 1
  | .commError => 2
  | .transportFault => 3

/-- BUSY: 1 iff `phase` is not IDLE (R19). -/
def State.busy (s : State) : Bool :=
  s.phase != .idle

/-- STATUS: bits 7:4 zero, bit 3 RSP_VALID, bits 2:1 RESULT, bit 0 BUSY (R19). -/
def State.status (s : State) : Byte :=
  0#4 ++ BitVec.ofBool s.rspValid ++ s.result.code ++ BitVec.ofBool s.busy

end Sys2Proof.Machine
end

