-- ==== Sys2Proof/Machine/Operands.lean ====
section
/-! DEFINITION. The operand forms: a host register index (R30), and the parameters a command reads from TX_PARAM and a
reply leaves in RX_PARAM (R49, R81). -/

namespace Sys2Proof.Machine

/-- The register at a host index (R30). -/
def regAt (j : HostIndex) : HostReg :=
  if j = 0x000 then .ctrl
  else if j = 0x001 then .status
  else if j = 0x002 then .cmdId
  else if j = 0x003 then .cmdInstr
  else if j = 0x004 then .cmdNparams
  else if j = 0x005 then .rspId
  else if j = 0x006 then .rspError
  else if j = 0x007 then .rspNparams
  else if j.toNat < 0x100 then .reserved
  else if h : j.toNat - 0x100 < Config.maxParams then .txParam ⟨j.toNat - 0x100, h⟩
  else if j.toNat < 0x200 then .reserved
  else if h : j.toNat - 0x200 < Config.maxParams then .rxParam ⟨j.toNat - 0x200, h⟩
  else .reserved

/-- The lowest unwritten entry among TX_PARAM[0..n-1]. DESIGN CHOICE: R73 does not say which one the refusal names when
several are unwritten (log entry 8). -/
def firstUnwritten (b : Vector (Option Byte) Config.maxParams) (n : Nat) : Option Nat :=
  (b.toList.take n).findIdx? Option.isNone

/-- The bytes of TX_PARAM[0..n-1], in order; all n of them where none is unwritten (R49). -/
def stagedParams (b : Vector (Option Byte) Config.maxParams) (n : Nat) : List Byte :=
  (b.toList.take n).filterMap id

/-- RX_PARAM after a reply with parameters `q`: entry i < |q| holds q[i], the others keep what they held (R81). -/
def storedReply (old : Vector Byte Config.maxParams) (q : List Byte) : Vector Byte Config.maxParams :=
  Vector.ofFn fun k => q.getD k.val old[k]

end Sys2Proof.Machine
end

