-- ==== Sys2Proof/Machine/Ops.lean ====
section
/-! DEFINITION. The shared operations: what the host is answered and the marks, completion (R97, which stands where other
hardware takes an exception; there is no return from it, R99), reset, and the transitions caused by transport answers. -/

namespace Sys2Proof.Machine

/-- The outcome type of a meaning. -/
abbrev Outcome := Host.Outcome State Fault Refusal

/-- Whether a reply is a refusal, which sets the mark `refused` (R96). -/
def HostReply.isRefusal : HostReply → Bool
  | .refusal _ => true
  | _ => false

/-- Whether a reply is a read without a value, which sets the mark `faulted` (R32, R96). -/
def HostReply.isNoValue : HostReply → Bool
  | .noValue _ => true
  | _ => false

/-- Answer the host's access. A refusal or a fault sets its mark and leaves the block's state as it is (R27, R96); no mark
is ever cleared. -/
def respond (r : HostReply) (s : State) : State :=
  { s with
    hostReply := r
    refused := s.refused || r.isRefusal
    faulted := s.faulted || r.isNoValue }

/-- refuse(reason) (R27, R96). -/
def refuse (r : RefuseReason) (s : State) : State :=
  respond (.refusal r) s

/-- finish(r), the completion of an exchange (R97). -/
def finish (r : Result) (s : State) : State :=
  { s with result := r, phase := .idle }

/-- A host write of CMD_ID (R31). -/
def setCmdId (v : Byte) (s : State) : State :=
  { s with cmdId := v }

/-- A host write of CMD_INSTR (R31). -/
def setCmdInstr (v : Byte) (s : State) : State :=
  { s with cmdInstr := v }

/-- A host write of CMD_NPARAMS (R31). -/
def setCmdNparams (v : Byte) (s : State) : State :=
  { s with cmdNparams := v }

/-- A host write of TX_PARAM[i], which makes the entry written (R31). -/
def setTxParam (i : Fin Config.maxParams) (v : Byte) (s : State) : State :=
  { s with txParam := s.txParam.set i (some v) }

/-- A command is accepted: the frame is fixed, the results are cleared, TxSend is issued (R73, R87). -/
def accept (k : Kind) (id : Byte) (s : State) : State :=
  { s with
    txFrame := buildFrame id s.cmdInstr (stagedParams s.txParam s.cmdNparams.toNat)
    kind := k
    result := .none
    rspValid := false
    phase := .txWait }

/-- Latch an accepted header and issue RxRecv(latLen) (R77). -/
def latchHeader (id len : Byte) (s : State) : State :=
  { s with latId := id, latLen := len, phase := .bodyWait }

/-- Store a reply that passed every check; `finish` follows (R81). -/
def storeReply (body : List Byte) (s : State) : State :=
  { s with
    rspId := s.latId
    rspError := bodyCode body
    rspNparams := s.latLen - 2
    rxParam := storedReply s.rxParam (bodyParams body)
    rspValid := true }

/-- Issue RxRecv(4) (R75). -/
def awaitHeader (s : State) : State :=
  { s with phase := .hdrWait }

/-- Take the oldest move from the agents' list, leaving `rest`. -/
def setInputs (rest : List Input) (s : State) : State :=
  { s with inputs := rest }

/-- Reset (R108, R109). It writes what R26 gives a value for and nothing else (R28): the fields R26 gives none for, the
marks (R110), and the model's own fields stay (log entry 7). -/
def resetBlock (s : State) : State :=
  { s with
    phase := .idle
    txFrame := []
    cmdId := 0
    cmdInstr := 0
    cmdNparams := 0
    txParam := Vector.replicate Config.maxParams none
    result := .none
    rspValid := false }

/-- The outstanding transport request (R37). -/
def State.request (s : State) : Option Request :=
  match s.phase with
  | .idle => none
  | .txWait => some (.txSend s.txFrame)
  | .hdrWait => some (.rxRecv Config.headerCount)
  | .bodyWait => some (.rxRecv s.latLen.toNat)

/-- The transport has completed the write of the frame: R75 for UNICAST, R88 for BCAST. -/
def txDone (s : State) : State :=
  match s.kind with
  | .unicast => awaitHeader s
  | .bcast => finish .ok s

/-- `RxRecv(4)` is answered with data (R76, R77). -/
def hdrAnswer (bytes : List Byte) (s : State) : State :=
  match bytes with
  | m0 :: m1 :: id :: len :: _ =>
    if m0 = Config.marker ∧ m1 = Config.marker then latchHeader id len s
    else finish .commError s
  | _ => finish .commError s

/-- `RxRecv(latLen)` is answered with data (R78 to R81). -/
def bodyAnswer (bytes : List Byte) (s : State) : State :=
  if bytes.length < s.latLen.toNat then finish .commError s
  else if s.latLen.toNat < 2 then finish .commError s
  else if checksumValid (coveredBytes s.latId s.latLen bytes) (bodyChecksum bytes) then
    finish .ok (storeReply bytes s)
  else finish .commError s

/-- The transport answers the outstanding request (R75 to R82, R88). An answer the contract excludes is a fault (R40). -/
def deliver (a : Answer) (s : State) : Outcome :=
  match s.phase, a with
  | .idle, _ => .fault .unsolicitedAnswer
  | .txWait, .ok => .next (txDone s)
  | .txWait, .fail => .next (finish .transportFault s)
  | .txWait, .data _ => .fault .wrongAnswer
  | .hdrWait, .ok => .fault .wrongAnswer
  | .hdrWait, .fail => .next (finish .transportFault s)
  | .hdrWait, .data bytes =>
    if bytes.length ≤ Config.headerCount then .next (hdrAnswer bytes s) else .fault .overlongAnswer
  | .bodyWait, .ok => .fault .wrongAnswer
  | .bodyWait, .fail => .next (finish .transportFault s)
  | .bodyWait, .data bytes =>
    if bytes.length ≤ s.latLen.toNat then .next (bodyAnswer bytes s) else .fault .overlongAnswer

end Sys2Proof.Machine
end

