-- ==== Sys2Proof/Machine/Commands.lean ====
section
/-! DEFINITION. The two host commands, SEND and BROADCAST (30_encoding.md R48, 41_send.md R73, 42_broadcast.md R87). -/

namespace Sys2Proof.Machine

/-- The checks both commands make on the count and the parameters, in the rules' order, and then the acceptance (R73, R87). -/
def acceptWithParams (k : Kind) (id : Byte) (s : State) : State :=
  if Config.maxParams < s.cmdNparams.toNat then refuse (.tooManyParams s.cmdNparams) s
  else
    match firstUnwritten s.txParam s.cmdNparams.toNat with
    | some i => refuse (.unwrittenTxParam i) s
    | none => respond .done (accept k id s)

/-- AcceptSend (R73). -/
def acceptSend (s : State) : State :=
  if 0xFE ≤ s.cmdId.toNat then refuse (.sendBadId s.cmdId) s
  else acceptWithParams .unicast s.cmdId s

/-- AcceptBroadcast; CMD_ID is not read (R87). -/
def acceptBroadcast (s : State) : State :=
  acceptWithParams .bcast Config.broadcastId s

/-- Command(v), a host write of `v` to CTRL (R48). -/
def command (v : Byte) (s : State) : State :=
  if s.phase ≠ .idle then refuse .commandWhileBusy s
  else if v = 0x01 then acceptSend s
  else if v = 0x02 then acceptBroadcast s
  else refuse (.reservedCommand v) s

/-- SEND (R48, R73). -/
def execSend (s : State) : Outcome :=
  .next (command 0x01 s)

/-- BROADCAST (R48, R87). -/
def execBroadcast (s : State) : Outcome :=
  .next (command 0x02 s)

end Sys2Proof.Machine
end

