-- ==== Sys2Proof/Machine/Agents.lean ====
section
/-! DEFINITION. The agents' moves (R8): the instruction a move carries, and what a move does when it carries none. -/

namespace Sys2Proof.Machine

/-- The code a move brings to the decoder: a host operation, a CTRL byte, the frame in flight when its write is complete
(R38), or the packet that a body answer makes whole with the latched header (R54). -/
def fetch (m : Input) (s : State) : Option Code :=
  match m with
  | .hostOp w => some (.hostOp w)
  | .command v => some (.command v)
  | .answer .ok => if s.phase = .txWait then some (.outgoing s.txFrame) else none
  | .answer (.data bytes) =>
    if s.phase = .bodyWait then some (.incoming (packetBytes s.latId s.latLen bytes)) else none
  | .answer .fail => none
  | .lateAnswer _ => none
  | .reset => none

/-- The instruction a move carries, where the decoder finds one. -/
def fetchInstr (m : Input) (s : State) : Option Instr :=
  (fetch m s).bind fun c => (decode c).toOption

/-- A move that carries no instruction: a malformed host word (R63), a reserved CTRL value (R48), an answer that makes no
whole packet (R75 to R82), a late answer, which is never delivered (R109), reset (R108). -/
def perform (m : Input) (s : State) : Outcome :=
  match m with
  | .hostOp _ => .next (refuse .badHostWord s)
  | .command v => .next (command v s)
  | .answer a => deliver a s
  | .lateAnswer _ => .next s
  | .reset => .next (resetBlock s)

/-- Put a code where the next step fetches it, with what that fetch needs: an outgoing packet is the frame in flight, its
write just completed; an incoming one has its header latched, and its body is the answer. -/
def placeCode (c : Code) (s : State) : State :=
  match c with
  | .command v => { s with inputs := .command v :: s.inputs }
  | .hostOp w => { s with inputs := .hostOp w :: s.inputs }
  | .outgoing bytes =>
    { s with
      phase := .txWait
      kind := if bytes.getD 2 0 = Config.broadcastId then .bcast else .unicast
      txFrame := bytes
      inputs := .answer .ok :: s.inputs }
  | .incoming bytes =>
    { s with
      phase := .bodyWait
      kind := .unicast
      latId := bytes.getD 2 0
      latLen := bytes.getD 3 0
      inputs := .answer (.data (bytes.drop 4)) :: s.inputs }

end Sys2Proof.Machine
end

