-- ==== Sys2Proof/Machine/HostAccess.lean ====
section
/-! DEFINITION. The host's register accesses (20_memory.md R31 to R35). -/

namespace Sys2Proof.Machine

/-- HostWrite(j, v) (R31, R34). -/
def hostWrite (j : HostIndex) (v : Byte) (s : State) : State :=
  match regAt j with
  | .ctrl => command v s
  | .cmdId => respond .done (setCmdId v s)
  | .cmdInstr => respond .done (setCmdInstr v s)
  | .cmdNparams => respond .done (setCmdNparams v s)
  | .txParam i => respond .done (setTxParam i v s)
  | .status => refuse (.badAccess j) s
  | .rspId => refuse (.badAccess j) s
  | .rspError => refuse (.badAccess j) s
  | .rspNparams => refuse (.badAccess j) s
  | .rxParam _ => refuse (.badAccess j) s
  | .reserved => refuse (.badAccess j) s

/-- A result register as the host reads it: 0x00 unless RSP_VALID is 1 (R33). -/
def gated (v : Byte) (s : State) : Byte :=
  if s.rspValid then v else 0

/-- RX_PARAM[i] as the host reads it (R33). -/
def rxParamRead (i : Fin Config.maxParams) (s : State) : Byte :=
  if s.rspValid && decide (i.val < s.rspNparams.toNat) then s.rxParam[i] else 0

/-- What a host read of TX_PARAM[i] answers (R32). -/
def txParamRead (i : Fin Config.maxParams) (s : State) : HostReply :=
  match s.txParam[i] with
  | some v => .value v
  | none => .noValue (.unwrittenTxParam i.val)

/-- HostRead(j) (R32, R33, R34). -/
def hostRead (j : HostIndex) (s : State) : HostReply :=
  match regAt j with
  | .ctrl => .refusal (.badAccess j)
  | .status => .value s.status
  | .cmdId => .value s.cmdId
  | .cmdInstr => .value s.cmdInstr
  | .cmdNparams => .value s.cmdNparams
  | .rspId => .value (gated s.rspId s)
  | .rspError => .value (gated s.rspError s)
  | .rspNparams => .value (gated s.rspNparams s)
  | .txParam i => txParamRead i s
  | .rxParam i => .value (rxParamRead i s)
  | .reserved => .refusal (.badAccess j)

/-- HOST_WR (R31). -/
def execHostWr (j : HostIndex) (v : Byte) (s : State) : Outcome :=
  .next (hostWrite j v s)

/-- HOST_RD: a read changes no state of the block (R32, R33, R35). -/
def execHostRd (j : HostIndex) (s : State) : Outcome :=
  .next (respond (hostRead j s) s)

end Sys2Proof.Machine
end

