-- ==== Sys2Proof/Machine/Packets.lean ====
section
/-! DEFINITION. The wire packets as the transport carries them: an outgoing packet is the write of the frame in flight being
completed (R38, R75, R88), an incoming one answers the receive request that is outstanding (R39, R54, R76 to R81). Log
entries 12 and 13 say what is the model's in this. -/

namespace Sys2Proof.Machine

/-- The transport has completed the write of `frame`, which answers the outstanding TxSend with ok (R38). It must be the
frame presented, and a TxSend must be outstanding (R40). -/
def frameWritten (frame : List Byte) (s : State) : Outcome :=
  if s.phase = .txWait then
    if s.txFrame = frame then .next (txDone s) else .fault .foreignFrame
  else .fault .unsolicitedAnswer

/-- PKT_INSTRUCTION (R50, R75). -/
def execPktInstruction (id len : Byte) (body : List Byte) (s : State) : Outcome :=
  frameWritten (packetBytes id len body) s

/-- PKT_BROADCAST (R53, R88). -/
def execPktBroadcast (len : Byte) (body : List Byte) (s : State) : Outcome :=
  frameWritten (packetBytes Config.broadcastId len body) s

/-- PKT_STATUS (R54): its first four bytes answer RxRecv(4), what follows them answers RxRecv(latLen), with no more bytes
than that asks for. While no receive is outstanding the block never sees the packet (R94). -/
def execPktStatus (id len : Byte) (body : List Byte) (s : State) : Outcome :=
  match s.phase with
  | .hdrWait => .next (hdrAnswer [Config.marker, Config.marker, id, len] s)
  | .bodyWait => .next (bodyAnswer (body.take s.latLen.toNat) s)
  | .idle => .next s
  | .txWait => .next s

end Sys2Proof.Machine
end

