-- ==== Sys2Proof/Machine/Dispatch.lean ====
section
/-! DEFINITION. The meaning of each instruction, one arm per constructor. -/

namespace Sys2Proof.Machine

def exec (i : Instr) (s : State) : Host.Outcome State Fault Refusal :=
  match i with
  | .send => Sys2Proof.Machine.execSend s
  | .broadcast => Sys2Proof.Machine.execBroadcast s
  | .pktInstruction id len body => Sys2Proof.Machine.execPktInstruction id len body s
  | .pktBroadcast len body => Sys2Proof.Machine.execPktBroadcast len body s
  | .pktStatus id len body => Sys2Proof.Machine.execPktStatus id len body s
  | .hostWr j v => Sys2Proof.Machine.execHostWr j v s
  | .hostRd j => Sys2Proof.Machine.execHostRd j s

end Sys2Proof.Machine
end

