-- ==== Sys2Proof/Machine/Step.lean ====
section
/-! DEFINITION. One step: the oldest move of the agents' list is taken (R8). With no move the block stays as it is (R119). -/

namespace Sys2Proof.Machine

/-- The block does not step on its own (R8): with no move left the state stays. Otherwise the oldest move is taken off the
list, and the instruction it carries is executed, or, where it carries none, the move is performed. -/
def step (s : State) : Host.Outcome State Fault Refusal :=
  match s.inputs with
  | [] => .next s
  | m :: rest =>
    match fetchInstr m (setInputs rest s) with
    | some i => exec i (setInputs rest s)
    | none => perform m (setInputs rest s)

/-- `s` with the instruction of a table word where the next step fetches it. -/
def State.withFetchWord (s : State) (nbits w : Nat) : State :=
  match tableCode nbits w with
  | some c => placeCode c s
  | none => s

end Sys2Proof.Machine
end

