-- ==== Sys2Proof/Machine/HostNotation.lean ====
section
/-! DEFINITION. The host's notation for whole operations, as HOSTOP words (R62 to R64). Labels, `if` and `goto` belong to the
host's own instruction set and are no part of the block (R62), so WAIT is given by the one read it repeats and GETRSP by the
reads it makes once the host knows k. -/

namespace Sys2Proof.Machine

/-- `WR <reg>, <imm8>` (R62). -/
def wrWord (j : HostIndex) (v : Byte) : HostWord :=
  encodeHostOp true j v

/-- `RD <reg>` (R62). -/
def rdWord (j : HostIndex) : HostWord :=
  encodeHostOp false j 0

/-- The writes of TX_PARAM[i], TX_PARAM[i+1], ... (R64). -/
def wrParams : Nat → List Byte → List HostWord
  | _, [] => []
  | i, v :: p => wrWord (BitVec.ofNat 10 (0x100 + i)) v :: wrParams (i + 1) p

/-- The reads of RX_PARAM[0..k-1] (R64). -/
def rdParams (k : Nat) : List HostWord :=
  (List.range k).map fun i => rdWord (BitVec.ofNat 10 (0x200 + i))

/-- The staging writes both pseudo-instructions share (R64). -/
def stageWords (instr : Byte) (p : List Byte) : List HostWord :=
  wrWord 0x003 instr :: wrWord 0x004 (BitVec.ofNat 8 p.length) :: wrParams 0 p

/-- The pseudo-instruction `SEND id, instr, p` (R64). -/
def sendWords (id instr : Byte) (p : List Byte) : List HostWord :=
  wrWord 0x002 id :: stageWords instr p ++ [wrWord 0x000 0x01]

/-- The pseudo-instruction `BROADCAST instr, p` (R64). -/
def broadcastWords (instr : Byte) (p : List Byte) : List HostWord :=
  stageWords instr p ++ [wrWord 0x000 0x02]

/-- The read that WAIT repeats while bit 0 is 1 (R64, R116). -/
def waitWord : HostWord :=
  rdWord 0x001

/-- The reads of GETRSP for a reply of k parameters (R64). -/
def getrspWords (k : Nat) : List HostWord :=
  rdWord 0x001 :: rdWord 0x005 :: rdWord 0x006 :: rdWord 0x007 :: rdParams k

end Sys2Proof.Machine
end

