-- ==== Sys2Proof/WellFormed.lean ====
section
/-! DEFINITION. Which terms of Instr are instructions of the block: an outgoing packet is one the block can emit (R66), an
incoming one has as many body bytes as its length byte says (R54). A received packet that R59 calls illegal (L < 2, wrong
checksum) is well-formed here: it can arrive, and R79 and R80 say what then happens. -/

namespace Sys2Proof

/-- The body of a packet the block can emit: as long as the length byte says, room for the instruction and the checksum,
and the checksum right (R51, R52, R66). -/
def outgoingBodyOk (id len : Byte) (body : List Byte) : Bool :=
  body.length == len.toNat && decide (2 ≤ len.toNat) &&
    Machine.checksumValid (Machine.coveredBytes id len body) (Machine.bodyChecksum body)

/-- The legal instructions. The id of PKT_INSTRUCTION is at most 0xFD (R55, R65). -/
def Instr.wellFormed : Instr → Bool
  | .send => true
  | .broadcast => true
  | .pktInstruction id len body => decide (id.toNat ≤ 0xFD) && outgoingBodyOk id len body
  | .pktBroadcast len body => outgoingBodyOk Config.broadcastId len body
  | .pktStatus _ len body => body.length == len.toNat
  | .hostWr _ _ => true
  | .hostRd _ => true

/-- Whether an incoming packet's SEND finishes OK once the packet has arrived whole: L is at least 2 and the checksum
matches (R59, fourth and fifth bullet). -/
def statusLegal (id len : Byte) (body : List Byte) : Bool :=
  decide (2 ≤ len.toNat) && Machine.checksumValid (Machine.coveredBytes id len body) (Machine.bodyChecksum body)

end Sys2Proof
end

