-- ==== Sys2Proof/Safety.lean ====
section
/-! DEFINITION. What counts as a run inside the host's and the transport's contract (R27, R40), the invariant of the
sequencer, and the exchange of one SEND as one function (R85). -/

namespace Sys2Proof.Machine

/-- Neither mark is set (R27). A claim about a run takes it as a premise. -/
abbrev State.Clean (s : State) : Prop :=
  s.refused = false ∧ s.faulted = false

/-- An answer the transport contract allows for a request: ok or fail for TxSend (R38), fail or at most k bytes for
RxRecv(k) (R39). -/
def Answer.allowed : Request → Answer → Bool
  | .txSend _, .ok => true
  | .txSend _, .fail => true
  | .txSend _, .data _ => false
  | .rxRecv _, .ok => false
  | .rxRecv _, .fail => true
  | .rxRecv k, .data bytes => decide (bytes.length ≤ k)

/-- The bytes are a packet the block can emit for a command of this kind: PKT_INSTRUCTION for UNICAST, PKT_BROADCAST for
BCAST, well-formed (R66). -/
def frameOk (k : Kind) (bytes : List Byte) : Bool :=
  match k, decodeOutgoing bytes with
  | .unicast, .ok (.pktInstruction id len body) => (Instr.pktInstruction id len body).wellFormed
  | .bcast, .ok (.pktBroadcast len body) => (Instr.pktBroadcast len body).wellFormed
  | _, _ => false

/-- What holds between the fields of every reachable state. -/
structure State.Inv (s : State) : Prop where
  /-- While an exchange runs, `txFrame` is a packet of its kind (R12, R66). -/
  frame : s.phase ≠ .idle → frameOk s.kind s.txFrame = true
  /-- A receive is outstanding only for a SEND (R89). -/
  receiving : s.phase = .hdrWait ∨ s.phase = .bodyWait → s.kind = .unicast
  /-- While an exchange runs, RESULT is NONE and RSP_VALID is 0 (R73, R87). -/
  busy : s.phase ≠ .idle → s.result = .none ∧ s.rspValid = false
  /-- RSP_VALID is 1 only after a command that finished OK (R21). -/
  valid : s.rspValid = true → s.result = .ok
  /-- The reply count never exceeds MAXP (R6, R81). -/
  count : s.rspNparams.toNat ≤ Config.maxParams

/-- `n` steps, stopping at the first fault or refusal. -/
def stepsFrom : Nat → State → Host.Outcome State Fault Refusal
  | 0, s => .next s
  | n + 1, s =>
    match step s with
    | .next t => stepsFrom n t
    | .fault f => .fault f
    | .refused r => .refused r

/-- The result of a SEND that reaches `finish`, from its three answers alone, and the reply where it is OK (R85). -/
def sendResult (a h b : Answer) : Result × Option (Byte × Byte × List Byte) :=
  match a, h, b with
  | .ok, .data bs, b =>
    if bs.length < 4 ∨ bs.getD 0 0 ≠ 0xFF ∨ bs.getD 1 0 ≠ 0xFF then (.commError, none)
    else
      match b with
      | .data d =>
        let id := bs.getD 2 0
        let len := bs.getD 3 0
        let params := (d.drop 1).take (len.toNat - 2)
        if d.length < len.toNat ∨ len.toNat < 2 then (.commError, none)
        else if checksum ([id, len, d.getD 0 0] ++ params) ≠ d.getD (len.toNat - 1) 0 then (.commError, none)
        else (.ok, some (id, d.getD 0 0, params))
      | _ => (.transportFault, none)
  | _, _, _ => (.transportFault, none)

/-- How many of its three requests a SEND issues: no further one after a failing exit (R83). -/
def sendRequests (a h : Answer) : Nat :=
  match a, h with
  | .ok, .data bs => if bs.length < 4 ∨ bs.getD 0 0 ≠ 0xFF ∨ bs.getD 1 0 ≠ 0xFF then 2 else 3
  | .ok, _ => 2
  | _, _ => 1

/-- The three answers are ones the contract allows for TxSend, RxRecv(4) and RxRecv(L), L the fourth header byte (R38, R39). -/
def answersAllowed (a h b : Answer) : Prop :=
  Answer.allowed (.txSend []) a = true ∧ Answer.allowed (.rxRecv 4) h = true ∧
    ∀ bs, h = .data bs → Answer.allowed (.rxRecv (bs.getD 3 0).toNat) b = true

end Sys2Proof.Machine
end

