-- ==== Sys2Proof/Certificates/Slice0/Obligations.lean ====
section
/-! DEFINITION. The statements about the model. Each docstring names the rules of spec/ it formalises. -/

open Sys2Proof Sys2Proof.Machine

/-! ### Reset -/

/-- R26: the state after reset, as stored and as the host reads it. -/
def Obligations.ResetStateIsTheTable : Prop :=
  State.reset.phase = .idle ∧ State.reset.request = none ∧ State.reset.txFrame = [] ∧
    State.reset.cmdId = 0 ∧ State.reset.cmdInstr = 0 ∧ State.reset.cmdNparams = 0 ∧
    (∀ i : Fin 253, State.reset.txParam[i] = none) ∧
    State.reset.result = .none ∧ State.reset.rspValid = false ∧
    exec (.hostRd 0x001) State.reset = .next { State.reset with hostReply := .value 0x00 } ∧
    (∀ j : HostIndex, (0x005 ≤ j.toNat ∧ j.toNat ≤ 0x007) ∨ (0x200 ≤ j.toNat ∧ j.toNat ≤ 0x2FC) →
      exec (.hostRd j) State.reset = .next { State.reset with hostReply := .value 0x00 })

/-- The invariant holds right after reset. Its clause on the reply count holds because the stored `s.rsp_nparams` is 0x00
there, which is the model's choice, log entry 6: R26 gives the register as it is read, not as it is stored. -/
def Obligations.InvariantHoldsAtReset : Prop :=
  State.reset.Inv

/-- R108, R110: reset is accepted in every phase, leaves the table of R26, and clears no mark. -/
def Obligations.ResetEventGivesTheTable : Prop :=
  ∀ (s : State) (rest : List Input), s.inputs = .reset :: rest →
    ∃ t, step s = .next t ∧ t.phase = .idle ∧ t.request = none ∧ t.txFrame = [] ∧
      t.cmdId = 0 ∧ t.cmdInstr = 0 ∧ t.cmdNparams = 0 ∧ (∀ i : Fin 253, t.txParam[i] = none) ∧
      t.result = .none ∧ t.rspValid = false ∧
      exec (.hostRd 0x001) t = .next { t with hostReply := .value 0x00 } ∧
      (∀ j : HostIndex, (0x005 ≤ j.toNat ∧ j.toNat ≤ 0x007) ∨ (0x200 ≤ j.toNat ∧ j.toNat ≤ 0x2FC) →
        exec (.hostRd j) t = .next { t with hostReply := .value 0x00 }) ∧
      t.refused = s.refused ∧ t.faulted = s.faulted

/-- R28, "Reset writes what rule R26 lists": the fields R26 gives no value for stay. That they stay, and that the model's
own fields stay, is log entry 7. -/
def Obligations.ResetEventWritesNothingElse : Prop :=
  ∀ (s t : State) (rest : List Input), s.inputs = .reset :: rest → step s = .next t →
    t.kind = s.kind ∧ t.latId = s.latId ∧ t.latLen = s.latLen ∧ t.rspId = s.rspId ∧ t.rspError = s.rspError ∧
      t.rspNparams = s.rspNparams ∧ t.rxParam = s.rxParam ∧ t.hostReply = s.hostReply ∧ t.inputs = rest

/-- R109: reset during an exchange withdraws the request and finishes nothing, and an answer to a withdrawn request is never
delivered: not right after the reset, and in no later state, a new exchange in flight or not. The late answer as a move of
its own is log entry 11. -/
def Obligations.ResetAbortsAndLateAnswerIsNotDelivered : Prop :=
  (∀ (s : State) (a : Answer) (rest : List Input), s.phase ≠ .idle → s.inputs = .reset :: .lateAnswer a :: rest →
    ∃ t, step s = .next t ∧ t.request = none ∧ t.phase = .idle ∧ t.result = .none ∧
      step t = .next { t with inputs := rest }) ∧
  (∀ (s : State) (a : Answer) (rest : List Input), s.inputs = .lateAnswer a :: rest →
    step s = .next { s with inputs := rest })

/-! ### Host accesses -/

/-- R31, R28: a host write other than to CTRL changes the one register its index names and nothing else of the block, in
every phase; to a staging register it is done and sets no mark. -/
def Obligations.HostWriteChangesOneRegister : Prop :=
  ∀ (j : HostIndex) (v : Byte) (s : State), j ≠ 0x000 →
    ∃ t, exec (.hostWr j v) s = .next t ∧
      t.cmdId = (if j = 0x002 then v else s.cmdId) ∧
      t.cmdInstr = (if j = 0x003 then v else s.cmdInstr) ∧
      t.cmdNparams = (if j = 0x004 then v else s.cmdNparams) ∧
      (∀ i : Fin 253, t.txParam[i] = if j.toNat = 0x100 + i.val then some v else s.txParam[i]) ∧
      ((0x002 ≤ j.toNat ∧ j.toNat ≤ 0x004) ∨ (0x100 ≤ j.toNat ∧ j.toNat ≤ 0x1FC) →
        t.hostReply = .done ∧ t.refused = s.refused) ∧
      t.faulted = s.faulted ∧ t.phase = s.phase ∧ t.kind = s.kind ∧ t.txFrame = s.txFrame ∧ t.latId = s.latId ∧
      t.latLen = s.latLen ∧ t.result = s.result ∧ t.rspValid = s.rspValid ∧ t.rspId = s.rspId ∧
      t.rspError = s.rspError ∧ t.rspNparams = s.rspNparams ∧ t.rxParam = s.rxParam ∧ t.inputs = s.inputs

/-- R32: reads of the staging registers and of STATUS; an unwritten TX_PARAM entry gives no value and sets the mark. -/
def Obligations.StagingReadsReturnTheByte : Prop :=
  ∀ s : State,
    exec (.hostRd 0x001) s = .next { s with hostReply := .value s.status } ∧
    exec (.hostRd 0x002) s = .next { s with hostReply := .value s.cmdId } ∧
    exec (.hostRd 0x003) s = .next { s with hostReply := .value s.cmdInstr } ∧
    exec (.hostRd 0x004) s = .next { s with hostReply := .value s.cmdNparams } ∧
    ∀ (j : HostIndex) (i : Fin 253), j.toNat = 0x100 + i.val →
      (∀ v, s.txParam[i] = some v → exec (.hostRd j) s = .next { s with hostReply := .value v }) ∧
      (s.txParam[i] = none →
        exec (.hostRd j) s = .next { s with hostReply := .noValue (.unwrittenTxParam i.val), faulted := true })

/-- R19: STATUS field by field, with the codes of R20; a write to it is refused (R34); it is 0x00 at reset. -/
def Obligations.StatusByteHasItsFields : Prop :=
  (∀ s : State, ∃ v : Byte, exec (.hostRd 0x001) s = .next { s with hostReply := .value v } ∧
    v.getLsbD 0 = decide (s.phase ≠ .idle) ∧
    v.extractLsb' 1 2 = (match s.result with | .none => 0#2 | .ok => 1#2 | .commError => 2#2 | .transportFault => 3#2) ∧
    v.getLsbD 3 = s.rspValid ∧
    v.extractLsb' 4 4 = 0#4) ∧
  (∀ (s : State) (v : Byte), exec (.hostWr 0x001 v) s =
    .next { s with hostReply := .refusal (.badAccess 0x001), refused := true }) ∧
  exec (.hostRd 0x001) State.reset = .next { State.reset with hostReply := .value 0x00 }

/-- R33: the result registers are gated by RSP_VALID, RX_PARAM[i] also by RSP_NPARAMS. -/
def Obligations.ResultReadsAreGated : Prop :=
  ∀ s : State,
    exec (.hostRd 0x005) s = .next { s with hostReply := .value (if s.rspValid then s.rspId else 0x00) } ∧
    exec (.hostRd 0x006) s = .next { s with hostReply := .value (if s.rspValid then s.rspError else 0x00) } ∧
    exec (.hostRd 0x007) s = .next { s with hostReply := .value (if s.rspValid then s.rspNparams else 0x00) } ∧
    ∀ (j : HostIndex) (i : Fin 253), j.toNat = 0x200 + i.val →
      exec (.hostRd j) s = .next { s with
        hostReply := .value (if s.rspValid = true ∧ i.val < s.rspNparams.toNat then s.rxParam[i] else 0x00) }

/-- R34: the three kinds of access the model refuses. The refusal sets the mark and nothing else changes (R96). -/
def Obligations.UnsupportedAccessesAreRefused : Prop :=
  ∀ (j : HostIndex) (v : Byte) (s : State),
    ((0x008 ≤ j.toNat ∧ j.toNat ≤ 0x0FF) ∨ (0x1FD ≤ j.toNat ∧ j.toNat ≤ 0x1FF) ∨ 0x2FD ≤ j.toNat →
      exec (.hostWr j v) s = .next { s with hostReply := .refusal (.badAccess j), refused := true } ∧
      exec (.hostRd j) s = .next { s with hostReply := .refusal (.badAccess j), refused := true }) ∧
    (j = 0x001 ∨ (0x005 ≤ j.toNat ∧ j.toNat ≤ 0x007) ∨ (0x200 ≤ j.toNat ∧ j.toNat ≤ 0x2FC) →
      exec (.hostWr j v) s = .next { s with hostReply := .refusal (.badAccess j), refused := true }) ∧
    (j = 0x000 → exec (.hostRd j) s = .next { s with hostReply := .refusal (.badAccess j), refused := true })

/-- R35: a host read of any index changes no state of the block, only what the host was answered and the marks, and it can
be repeated with the same answer. -/
def Obligations.ReadsChangeNothingAndRepeat : Prop :=
  ∀ (j : HostIndex) (s : State), ∃ (r : HostReply) (f m : Bool),
    exec (.hostRd j) s = .next { s with hostReply := r, refused := f, faulted := m } ∧
    exec (.hostRd j) { s with hostReply := r, refused := f, faulted := m } =
      .next { s with hostReply := r, refused := f, faulted := m }

/-- R48: Command(v). A byte written to CTRL is refused while an exchange runs; in IDLE the whole byte selects SEND,
BROADCAST or a refusal by name. -/
def Obligations.CtrlWriteIssuesTheCommand : Prop :=
  ∀ (v : Byte) (s : State),
    (s.phase ≠ .idle →
      exec (.hostWr 0x000 v) s = .next { s with hostReply := .refusal .commandWhileBusy, refused := true }) ∧
    (s.phase = .idle →
      (v = 0x01 → exec (.hostWr 0x000 v) s = exec .send s) ∧
      (v = 0x02 → exec (.hostWr 0x000 v) s = exec .broadcast s) ∧
      (v ≠ 0x01 → v ≠ 0x02 →
        exec (.hostWr 0x000 v) s = .next { s with hostReply := .refusal (.reservedCommand v), refused := true }))

/-- R63: a read word with data bits other than 0 is no host operation and is refused. -/
def Obligations.MalformedHostWordIsRefused : Prop :=
  ∀ (s : State) (w : HostWord) (rest : List Input), s.inputs = .hostOp w :: rest →
    w.toNat < 2 ^ 18 → w.toNat % 2 ^ 8 ≠ 0 →
    step s = .next { s with inputs := rest, hostReply := .refusal .badHostWord, refused := true }

/-- R31, R48, R63: the byte `v` at CTRL does what the word of WR CTRL, v does. The byte as a move of its own is log
entry 15. -/
def Obligations.CtrlByteIsTheWriteWord : Prop :=
  ∀ (s : State) (v : Byte) (rest : List Input),
    step { s with inputs := .command v :: rest } =
      step { s with inputs := .hostOp (BitVec.ofNat 19 (0x40000 + v.toNat)) :: rest }

/-! ### Checksum -/

/-- R68: the checksum depends on the sum mod 256 only, and the 8-bit accumulator computes it. -/
def Obligations.ChecksumIsTheAccumulator : Prop :=
  (∀ P : List Byte, checksum P = (P.foldl (fun acc b => acc + b) 0x00) ^^^ 0xFF) ∧
  (∀ P : List Byte, (checksum P).toNat = 0xFF - (P.map BitVec.toNat).sum % 256) ∧
  (∀ P Q : List Byte, (P.map BitVec.toNat).sum % 256 = (Q.map BitVec.toNat).sum % 256 → checksum P = checksum Q)

/-- R69: sum and checksum give 0xFF mod 256, and so do the bytes of a frame from offset 2 on. -/
def Obligations.SumWithChecksumIsFF : Prop :=
  (∀ P : List Byte, ((P.map BitVec.toNat).sum + (checksum P).toNat) % 256 = 0xFF) ∧
  (∀ (id instr : Byte) (p : List Byte), (((buildFrame id instr p).drop 2).map BitVec.toNat).sum % 256 = 0xFF)

/-- R70: the order of the payload does not matter, and the checksum taken again over the same bytes of a captured frame is
the one the frame carries. -/
def Obligations.ChecksumIgnoresOrder : Prop :=
  (∀ P Q : List Byte, P.Perm Q → checksum P = checksum Q) ∧
  (∀ P : List Byte, checksum ((P ++ [checksum P]).take P.length) = checksum P)

/-- R71: one changed byte, of the payload or of the checksum, is always caught; +1 and -1 on two bytes, and any reordering,
are not. -/
def Obligations.ValidationCatchesOneChangedByte : Prop :=
  (∀ (P : List Byte) (c : Byte), checksumValid P c = decide (checksum P = c)) ∧
  (∀ (pre post : List Byte) (a b c : Byte), checksumValid (pre ++ a :: post) c = true → a ≠ b →
    checksumValid (pre ++ b :: post) c = false) ∧
  (∀ (P : List Byte) (c d : Byte), checksumValid P c = true → c ≠ d → checksumValid P d = false) ∧
  (∀ (pre mid post : List Byte) (a b c : Byte), checksumValid (pre ++ a :: mid ++ b :: post) c = true →
    checksumValid (pre ++ (a + 1) :: mid ++ (b - 1) :: post) c = true) ∧
  (∀ (P Q : List Byte) (c : Byte), P.Perm Q → checksumValid P c = true → checksumValid Q c = true)

/-- R50, R51, R74: the frame of a command, byte for byte, with its length byte, its length and its bounds. -/
def Obligations.FrameHasTheTablesLayout : Prop :=
  ∀ (id instr : Byte) (p : List Byte), p.length ≤ 253 →
    ∃ len cks : Byte, buildFrame id instr p = [0xFF, 0xFF, id, len, instr] ++ p ++ [cks] ∧
      len.toNat = p.length + 2 ∧
      cks.toNat = 0xFF - (id.toNat + len.toNat + instr.toNat + (p.map BitVec.toNat).sum) % 256 ∧
      (buildFrame id instr p).length = p.length + 6 ∧ (buildFrame id instr p).length = len.toNat + 4 ∧
      6 ≤ (buildFrame id instr p).length ∧ (buildFrame id instr p).length ≤ 259

/-- R66: every frame a command can emit is read back as PKT_INSTRUCTION (ids 0x00 to 0xFD) or PKT_BROADCAST (0xFE), and is
well-formed; id 0xFF is neither (R55). -/
def Obligations.EmittedFrameIsAnOutgoingPacket : Prop :=
  ∀ (id instr : Byte) (p : List Byte), p.length ≤ 253 →
    (id.toNat ≤ 0xFD → ∃ len body, decode (.outgoing (buildFrame id instr p)) = .ok (.pktInstruction id len body) ∧
      (Instr.pktInstruction id len body).wellFormed = true) ∧
    (id = 0xFE → ∃ len body, decode (.outgoing (buildFrame id instr p)) = .ok (.pktBroadcast len body) ∧
      (Instr.pktBroadcast len body).wellFormed = true) ∧
    (id = 0xFF → decode (.outgoing (buildFrame id instr p)) = .error .reservedId)

/-! ### The commands -/

/-- R73: SEND in IDLE, with a legal id, at most 253 parameters and all of them written, is accepted. -/
def Obligations.SendIsAccepted : Prop :=
  ∀ (s : State) (p : List Byte), s.phase = .idle → s.cmdId.toNat ≤ 0xFD → s.cmdNparams.toNat = p.length →
    p.length ≤ 253 → (∀ i, i < p.length → s.txParam[i]? = some p[i]?) →
    exec .send s = .next { s with
      txFrame := [0xFF, 0xFF, s.cmdId, BitVec.ofNat 8 (p.length + 2), s.cmdInstr] ++ p ++
        [checksum ([s.cmdId, BitVec.ofNat 8 (p.length + 2), s.cmdInstr] ++ p)]
      kind := .unicast
      result := .none
      rspValid := false
      phase := .txWait
      hostReply := .done }

/-- R73: the refusals of SEND in IDLE, in the rule's order, each leaving the block as it was. Which unwritten entry is named
when there are several, the lowest, is log entry 8. -/
def Obligations.SendRefusalsInOrder : Prop :=
  ∀ s : State, s.phase = .idle →
    (0xFE ≤ s.cmdId.toNat →
      exec .send s = .next { s with hostReply := .refusal (.sendBadId s.cmdId), refused := true }) ∧
    (s.cmdId.toNat ≤ 0xFD → 253 < s.cmdNparams.toNat →
      exec .send s = .next { s with hostReply := .refusal (.tooManyParams s.cmdNparams), refused := true }) ∧
    (s.cmdId.toNat ≤ 0xFD → s.cmdNparams.toNat ≤ 253 →
      ∀ i : Fin 253, i.val < s.cmdNparams.toNat → s.txParam[i] = none →
        (∀ k : Fin 253, k < i → s.txParam[k] ≠ none) →
        exec .send s = .next { s with hostReply := .refusal (.unwrittenTxParam i.val), refused := true })

/-- R87: BROADCAST in IDLE, with at most 253 parameters and all of them written, is accepted, whatever CMD_ID holds. -/
def Obligations.BroadcastIsAccepted : Prop :=
  ∀ (s : State) (p : List Byte), s.phase = .idle → s.cmdNparams.toNat = p.length →
    p.length ≤ 253 → (∀ i, i < p.length → s.txParam[i]? = some p[i]?) →
    exec .broadcast s = .next { s with
      txFrame := [0xFF, 0xFF, 0xFE, BitVec.ofNat 8 (p.length + 2), s.cmdInstr] ++ p ++
        [checksum ([0xFE, BitVec.ofNat 8 (p.length + 2), s.cmdInstr] ++ p)]
      kind := .bcast
      result := .none
      rspValid := false
      phase := .txWait
      hostReply := .done }

/-- R87: the refusals of BROADCAST in IDLE, in the rule's order (log entry 8 for the entry named). -/
def Obligations.BroadcastRefusalsInOrder : Prop :=
  ∀ s : State, s.phase = .idle →
    (253 < s.cmdNparams.toNat →
      exec .broadcast s = .next { s with hostReply := .refusal (.tooManyParams s.cmdNparams), refused := true }) ∧
    (s.cmdNparams.toNat ≤ 253 →
      ∀ i : Fin 253, i.val < s.cmdNparams.toNat → s.txParam[i] = none →
        (∀ k : Fin 253, k < i → s.txParam[k] ≠ none) →
        exec .broadcast s = .next { s with hostReply := .refusal (.unwrittenTxParam i.val), refused := true })

/-! ### The packets and the transport's answers -/

/-- R38, R75: the frame in flight of a SEND, written by the transport, leaves the block waiting for the header. That the
packet as an instruction means the completed write is log entry 12. -/
def Obligations.PktInstructionCompletesTheWrite : Prop :=
  ∀ (id len : Byte) (body : List Byte) (s : State), s.phase = .txWait → s.kind = .unicast →
    s.txFrame = [0xFF, 0xFF, id, len] ++ body →
    exec (.pktInstruction id len body) s = .next { s with phase := .hdrWait }

/-- R38, R88: the frame in flight of a BROADCAST, written by the transport, finishes it OK. That the packet as an
instruction means the completed write is log entry 12. -/
def Obligations.PktBroadcastFinishesOk : Prop :=
  ∀ (len : Byte) (body : List Byte) (s : State), s.phase = .txWait → s.kind = .bcast →
    s.txFrame = [0xFF, 0xFF, 0xFE, len] ++ body →
    exec (.pktBroadcast len body) s = .next { s with result := .ok, phase := .idle }

/-- R40: an outgoing packet that is not the frame in flight, or with no write outstanding, is no move of the transport: the
model stops by name (log entry 10). -/
def Obligations.ForeignFrameStops : Prop :=
  ∀ (id len : Byte) (body : List Byte) (s : State),
    (s.phase ≠ .txWait → exec (.pktInstruction id len body) s = .fault .unsolicitedAnswer ∧
      exec (.pktBroadcast len body) s = .fault .unsolicitedAnswer) ∧
    (s.phase = .txWait → s.txFrame ≠ [0xFF, 0xFF, id, len] ++ body →
      exec (.pktInstruction id len body) s = .fault .foreignFrame) ∧
    (s.phase = .txWait → s.txFrame ≠ [0xFF, 0xFF, 0xFE, len] ++ body →
      exec (.pktBroadcast len body) s = .fault .foreignFrame)

/-- R75: the transport answers TxSend of a SEND. -/
def Obligations.UnicastWriteAnswer : Prop :=
  ∀ (s : State) (rest : List Input), s.phase = .txWait → s.kind = .unicast →
    (s.inputs = .answer .ok :: rest →
      ∃ t, step s = .next t ∧ t = { s with inputs := rest, phase := .hdrWait } ∧ t.request = some (.rxRecv 4)) ∧
    (s.inputs = .answer .fail :: rest →
      step s = .next { s with inputs := rest, result := .transportFault, phase := .idle })

/-- R88: the transport answers TxSend of a BROADCAST. -/
def Obligations.BroadcastWriteAnswer : Prop :=
  ∀ (s : State) (rest : List Input), s.phase = .txWait → s.kind = .bcast →
    (s.inputs = .answer .ok :: rest → step s = .next { s with inputs := rest, result := .ok, phase := .idle }) ∧
    (s.inputs = .answer .fail :: rest →
      step s = .next { s with inputs := rest, result := .transportFault, phase := .idle })

/-- R76: a short header, or one without both markers, finishes COMM_ERROR, and nothing more is requested. -/
def Obligations.BadHeaderIsCommError : Prop :=
  ∀ (s : State) (bs : List Byte) (rest : List Input), s.phase = .hdrWait → s.inputs = .answer (.data bs) :: rest →
    bs.length ≤ 4 → bs.length < 4 ∨ bs[0]? ≠ some 0xFF ∨ bs[1]? ≠ some 0xFF →
    ∃ t, step s = .next t ∧ t = { s with inputs := rest, result := .commError, phase := .idle } ∧ t.request = none

/-- R77: a good header is latched, and as many bytes as its fourth byte says are requested, none included. -/
def Obligations.GoodHeaderIsLatched : Prop :=
  ∀ (s : State) (id len : Byte) (rest : List Input), s.phase = .hdrWait →
    s.inputs = .answer (.data [0xFF, 0xFF, id, len]) :: rest →
    ∃ t, step s = .next t ∧ t = { s with inputs := rest, latId := id, latLen := len, phase := .bodyWait } ∧
      t.request = some (.rxRecv len.toNat)

/-- R78, R79: a short body, and a whole one with L < 2, finish COMM_ERROR. -/
def Obligations.ShortOrImpossibleBodyIsCommError : Prop :=
  ∀ (s : State) (bs : List Byte) (rest : List Input), s.phase = .bodyWait → s.inputs = .answer (.data bs) :: rest →
    bs.length ≤ s.latLen.toNat → bs.length < s.latLen.toNat ∨ s.latLen.toNat < 2 →
    step s = .next { s with inputs := rest, result := .commError, phase := .idle }

/-- R80, R81: a whole body [err] ++ q ++ [c]: a wrong checksum finishes COMM_ERROR and changes no result register; a right
one fills the result registers, entry by entry, and finishes OK. -/
def Obligations.WholeBodyIsValidatedAndStored : Prop :=
  ∀ (s : State) (err c : Byte) (q : List Byte) (rest : List Input), s.phase = .bodyWait →
    s.inputs = .answer (.data ([err] ++ q ++ [c])) :: rest → s.latLen.toNat = q.length + 2 →
    (checksum ([s.latId, s.latLen, err] ++ q) ≠ c →
      step s = .next { s with inputs := rest, result := .commError, phase := .idle }) ∧
    (checksum ([s.latId, s.latLen, err] ++ q) = c →
      ∃ t, step s = .next t ∧
        t = { s with
          inputs := rest
          rspId := s.latId
          rspError := err
          rspNparams := BitVec.ofNat 8 q.length
          rxParam := t.rxParam
          rspValid := true
          result := .ok
          phase := .idle } ∧
        ∀ k : Fin 253, t.rxParam[k] = if h : k.val < q.length then q[k.val] else s.rxParam[k])

/-- R82: a receive that fails finishes TRANSPORT_FAULT. -/
def Obligations.FailedReceiveIsTransportFault : Prop :=
  ∀ (s : State) (rest : List Input), s.phase = .hdrWait ∨ s.phase = .bodyWait → s.inputs = .answer .fail :: rest →
    step s = .next { s with inputs := rest, result := .transportFault, phase := .idle }

/-- R37 to R40: an answer is a step of the block exactly when it is one the contract allows for the outstanding request;
otherwise the model stops with a fault (log entry 10). -/
def Obligations.AnswersAreTheContracts : Prop :=
  ∀ (s : State) (a : Answer) (rest : List Input), s.inputs = .answer a :: rest →
    ((∃ r, s.request = some r ∧ Answer.allowed r a = true) → ∃ t, step s = .next t) ∧
    (¬ (∃ r, s.request = some r ∧ Answer.allowed r a = true) → ∃ f, step s = .fault f)

/-- R54, R76 to R81: a status packet that a SEND waits for, taken by the header request and then by the body request,
ends the SEND: OK with its id, error byte and parameters where it is legal (R59), COMM_ERROR where it is not. The packet as
an instruction is log entry 13. -/
def Obligations.PktStatusEndsTheSend : Prop :=
  ∀ (id len : Byte) (body : List Byte) (s : State), body.length = len.toNat → s.phase = .hdrWait →
    ∃ t u, exec (.pktStatus id len body) s = .next t ∧
      t = { s with latId := id, latLen := len, phase := .bodyWait } ∧
      exec (.pktStatus id len body) t = .next u ∧ u.phase = .idle ∧
      (statusLegal id len body = false → u = { t with result := .commError, phase := .idle }) ∧
      (statusLegal id len body = true →
        u.result = .ok ∧ u.rspValid = true ∧ u.rspId = id ∧ body[0]? = some u.rspError ∧
        u.rspNparams.toNat = len.toNat - 2 ∧
        ∀ k : Fin 253, k.val < len.toNat - 2 → body[k.val + 1]? = some u.rxParam[k])

/-- R54: one packet is one transition of the block for each receive request, and changes only what that transition writes:
the frame of PKT_STATUS. Between a SEND's receives the block never sees it (R94; log entry 13). -/
def Obligations.PktStatusFrame : Prop :=
  ∀ (id len : Byte) (body : List Byte) (s : State), ∃ t, exec (.pktStatus id len body) s = .next t ∧
    t.kind = s.kind ∧ t.txFrame = s.txFrame ∧ t.cmdId = s.cmdId ∧ t.cmdInstr = s.cmdInstr ∧
    t.cmdNparams = s.cmdNparams ∧ t.txParam = s.txParam ∧ t.refused = s.refused ∧ t.faulted = s.faulted ∧
    t.hostReply = s.hostReply ∧ t.inputs = s.inputs ∧
    (s.phase ≠ .hdrWait → t.latId = s.latId ∧ t.latLen = s.latLen) ∧
    (s.phase ≠ .bodyWait → t.rspValid = s.rspValid ∧ t.rspId = s.rspId ∧ t.rspError = s.rspError ∧
      t.rspNparams = s.rspNparams ∧ t.rxParam = s.rxParam) ∧
    (s.phase = .idle ∨ s.phase = .txWait → t = s)

/-! ### The whole machine -/

/-- From every state that meets the invariant, a step gives a state that meets it. For a reset move its clause on the stored
reply count rests on reset keeping that field, log entry 7. -/
def Obligations.InvariantIsKept : Prop :=
  ∀ s t : State, s.Inv → step s = .next t → t.Inv

/-- R27: no step clears a mark, not even reset. -/
def Obligations.MarksAreNeverCleared : Prop :=
  ∀ s t : State, step s = .next t →
    (s.refused = true → t.refused = true) ∧ (s.faulted = true → t.faulted = true)

/-- R96: a step that sets a mark otherwise leaves the state as it was; only a host access sets one. -/
def Obligations.SettingAMarkChangesNothingElse : Prop :=
  ∀ s t : State, step s = .next t → s.Clean → ¬ t.Clean →
    (∃ m rest, s.inputs = m :: rest ∧ ((∃ w, m = .hostOp w) ∨ (∃ v, m = .command v)) ∧ t.inputs = rest) ∧
    t = { s with refused := t.refused, faulted := t.faulted, hostReply := t.hostReply, inputs := t.inputs } ∧
    ((∃ r, t.hostReply = .refusal r ∧ t.faulted = false) ∨ (∃ f, t.hostReply = .noValue f ∧ t.refused = false))

/-- R43, R83: the requests of an exchange come in one order, each after the answer to the one before, and every other way
out is to IDLE. Only a command leaves IDLE: the byte 0x01 or 0x02 written to CTRL (R48), as a CTRL byte or as the word of
WR CTRL (R63; log entry 15). -/
def Obligations.RequestsComeInOrder : Prop :=
  ∀ s t : State, step s = .next t → s.phase ≠ t.phase →
    (s.phase = .idle ∧ t.phase = .txWait ∧ t.result = .none ∧ t.rspValid = false ∧
      ∃ (v : Byte) (rest : List Input), (v = 0x01 ∨ v = 0x02) ∧
        (s.inputs = .command v :: rest ∨ s.inputs = .hostOp (BitVec.ofNat 19 (0x40000 + v.toNat)) :: rest)) ∨
    (s.phase = .txWait ∧ t.phase = .hdrWait ∧ s.kind = .unicast ∧ ∃ rest, s.inputs = .answer .ok :: rest) ∨
    (s.phase = .hdrWait ∧ t.phase = .bodyWait ∧
      ∃ id len rest, s.inputs = .answer (.data [0xFF, 0xFF, id, len]) :: rest ∧ t.latId = id ∧ t.latLen = len) ∨
    (t.phase = .idle ∧ ((∃ a rest, s.inputs = .answer a :: rest) ∨ ∃ rest, s.inputs = .reset :: rest))

/-- R8, R119: the block waits as long as no answer comes. A move that is no answer and no reset leaves a running exchange,
its frame (R12) and its latched header as they are. With no move at all nothing changes: that a step is taken there, and
leaves the state as it is, is the model's reading, log entry 2. -/
def Obligations.ExchangeWaitsForItsAnswer : Prop :=
  (∀ s t : State, step s = .next t → s.phase ≠ .idle → (∀ a rest, s.inputs ≠ .answer a :: rest) →
    (∀ rest, s.inputs ≠ .reset :: rest) →
    t.phase = s.phase ∧ t.kind = s.kind ∧ t.txFrame = s.txFrame ∧ t.latId = s.latId ∧ t.latLen = s.latLen ∧
      t.result = s.result ∧ t.rspValid = s.rspValid) ∧
  (∀ s : State, s.inputs = [] → step s = .next s)

/-- R12: after acceptance the frame cannot change until the exchange is over. -/
def Obligations.FrameIsFrozenWhileBusy : Prop :=
  ∀ s t : State, step s = .next t → s.phase ≠ .idle → (∀ rest, s.inputs ≠ .reset :: rest) → t.txFrame = s.txFrame

/-- R97, R21: RSP_VALID is set, and the stored results change, only in the step that finishes a SEND OK; a failing exchange
changes none of them. That a reset keeps the stored results and RX_PARAM is the model's reading of R28, log entry 7. -/
def Obligations.ResultsChangeOnlyOnSuccess : Prop :=
  ∀ s t : State, step s = .next t →
    (t.rspId = s.rspId ∧ t.rspError = s.rspError ∧ t.rspNparams = s.rspNparams ∧ t.rxParam = s.rxParam ∧
      (t.rspValid = true → s.rspValid = true)) ∨
    (s.phase = .bodyWait ∧ t.phase = .idle ∧ t.result = .ok ∧ t.rspValid = true ∧
      ∃ bytes rest, s.inputs = .answer (.data bytes) :: rest)

/-- R89, R90: a BROADCAST in flight never waits for a receive, and finishes OK or TRANSPORT_FAULT, never COMM_ERROR. The
invariant rules out a broadcast that is already receiving, which no run reaches. -/
def Obligations.BroadcastNeverReceives : Prop :=
  ∀ s t : State, s.Inv → step s = .next t → s.phase ≠ .idle → s.kind = .bcast →
    s.request = some (.txSend s.txFrame) ∧
    ((t.phase = .txWait ∧ t.kind = .bcast ∧ t.result = .none) ∨
      (t.phase = .idle ∧ t.rspValid = false ∧
        (t.result = .ok ∨ t.result = .transportFault ∨ (t.result = .none ∧ ∃ rest, s.inputs = .reset :: rest))))

/-- R86, R12: what stands in the staging registers during an exchange changes neither the exchange nor its results: two
states that differ there only take any answer to states that differ there only, or both stop with the same fault. -/
def Obligations.StagingDoesNotReachTheExchange : Prop :=
  ∀ (s : State) (a : Answer) (rest : List Input) (id instr n : Byte) (p : Vector (Option Byte) 253),
    s.inputs = .answer a :: rest →
    (∀ t, step s = .next t →
      step { s with cmdId := id, cmdInstr := instr, cmdNparams := n, txParam := p } =
        .next { t with cmdId := id, cmdInstr := instr, cmdNparams := n, txParam := p }) ∧
    (∀ f, step s = .fault f →
      step { s with cmdId := id, cmdInstr := instr, cmdNparams := n, txParam := p } = .fault f)

/-- R85: a SEND from its CTRL write to its `finish`, run on any answers the contract allows, ends with the result and the
reply that the rule's function gives, after as many answers as it has requests (R83). -/
def Obligations.SendExchangeIsTheRulesFunction : Prop :=
  ∀ (s : State) (p : List Byte) (a h b : Answer) (rest : List Input),
    s.phase = .idle → s.cmdId.toNat ≤ 0xFD → s.cmdNparams.toNat = p.length → p.length ≤ 253 →
    (∀ i, i < p.length → s.txParam[i]? = some p[i]?) → answersAllowed a h b →
    s.inputs = .command 0x01 :: ([Input.answer a, .answer h, .answer b].take (sendRequests a h) ++ rest) →
    ∃ t, stepsFrom (1 + sendRequests a h) s = .next t ∧ t.phase = .idle ∧ t.inputs = rest ∧
      t.result = (sendResult a h b).1 ∧ t.rspValid = (sendResult a h b).2.isSome ∧
      t.txFrame = buildFrame s.cmdId s.cmdInstr p ∧
      ∀ id err q, (sendResult a h b).2 = some (id, err, q) →
        t.rspId = id ∧ t.rspError = err ∧ t.rspNparams.toNat = q.length ∧
        ∀ k : Fin 253, k.val < q.length → q[k.val]? = some t.rxParam[k]

/-- R91: a BROADCAST from its CTRL write to its `finish`. -/
def Obligations.BroadcastExchangeIsTheRulesFunction : Prop :=
  ∀ (s : State) (p : List Byte) (a : Answer) (rest : List Input),
    s.phase = .idle → s.cmdNparams.toNat = p.length → p.length ≤ 253 →
    (∀ i, i < p.length → s.txParam[i]? = some p[i]?) → a = .ok ∨ a = .fail →
    s.inputs = .command 0x02 :: .answer a :: rest →
    ∃ t, stepsFrom 2 s = .next t ∧ t.phase = .idle ∧ t.inputs = rest ∧
      t.result = (if a = .ok then .ok else .transportFault) ∧ t.rspValid = false ∧
      t.txFrame = buildFrame 0xFE s.cmdInstr p

/-- R64, R31, R73: the writes of the pseudo-instruction SEND, from any idle state, whatever the staging registers held, one
host access a step, start the exchange with the frame of its own operands. -/
def Obligations.SendWordsStartTheExchange : Prop :=
  ∀ (s : State) (id instr : Byte) (p : List Byte) (rest : List Input), s.phase = .idle → id.toNat ≤ 0xFD →
    p.length ≤ 253 → s.inputs = (sendWords id instr p).map Input.hostOp ++ rest →
    ∃ t, stepsFrom (p.length + 4) s = .next t ∧ t.phase = .txWait ∧ t.kind = .unicast ∧
      t.txFrame = buildFrame id instr p ∧ t.result = .none ∧ t.rspValid = false ∧ t.inputs = rest ∧
      t.refused = s.refused ∧ t.faulted = s.faulted

/-- R64, R31, R87: the writes of the pseudo-instruction BROADCAST, from any idle state, whatever CMD_ID and the other staging
registers held, start the exchange with the frame of its own operands. -/
def Obligations.BroadcastWordsStartTheExchange : Prop :=
  ∀ (s : State) (instr : Byte) (p : List Byte) (rest : List Input), s.phase = .idle →
    p.length ≤ 253 → s.inputs = (broadcastWords instr p).map Input.hostOp ++ rest →
    ∃ t, stepsFrom (p.length + 3) s = .next t ∧ t.phase = .txWait ∧ t.kind = .bcast ∧
      t.txFrame = buildFrame 0xFE instr p ∧ t.result = .none ∧ t.rspValid = false ∧ t.cmdId = s.cmdId ∧
      t.inputs = rest ∧ t.refused = s.refused ∧ t.faulted = s.faulted

/-! ### Encoding -/

/-- Decoding what the encoder gives is the instruction again, for every well-formed instruction. -/
def Obligations.DecodeOfEncodeIsTheInstruction : Prop :=
  ∀ i : Instr, i.wellFormed = true → decode (encode i) = .ok i

/-- Where a code decodes, the encoder gives that code back: no two codes mean one instruction and no bit is dropped. -/
def Obligations.EncodeOfDecodeIsTheCode : Prop :=
  ∀ (c : Code) (i : Instr), decode c = .ok i → encode i = c

/-- R48: of the CTRL bytes exactly 0x01 and 0x02 are commands. R63: of the HOSTOP words exactly the read words with data
bits other than 0 are rejected. R61, R66: packet bytes are rejected exactly when they are no whole header, have not both
markers, or do not have as many bytes after byte 3 as byte 3 says, and outgoing ones also for id 0xFF (R55). That an incoming
packet with L < 2 or a wrong checksum is not among the rejected is log entry 20. -/
def Obligations.ReservedEncodingsAreRejected : Prop :=
  (∀ v : Byte, decode (.command v) = .error (.reservedCommand v) ↔ v ≠ 0x01 ∧ v ≠ 0x02) ∧
  (∀ v : Byte, (∃ i, decode (.command v) = .ok i) ↔ v = 0x01 ∨ v = 0x02) ∧
  (∀ w : HostWord, decode (.hostOp w) = .error .badHostWord ↔ w.toNat < 2 ^ 18 ∧ w.toNat % 2 ^ 8 ≠ 0) ∧
  (∀ w : HostWord, (∃ i, decode (.hostOp w) = .ok i) ↔ 2 ^ 18 ≤ w.toNat ∨ w.toNat % 2 ^ 8 = 0) ∧
  (∀ bytes : List Byte, bytes.length < 4 →
    decode (.outgoing bytes) = .error .truncatedHeader ∧ decode (.incoming bytes) = .error .truncatedHeader) ∧
  (∀ (m0 m1 id len : Byte) (body : List Byte), m0 ≠ 0xFF ∨ m1 ≠ 0xFF →
    decode (.outgoing ([m0, m1, id, len] ++ body)) = .error .badMarker ∧
    decode (.incoming ([m0, m1, id, len] ++ body)) = .error .badMarker) ∧
  (∀ (id len : Byte) (body : List Byte), body.length ≠ len.toNat →
    decode (.outgoing ([0xFF, 0xFF, id, len] ++ body)) = .error .badLength ∧
    decode (.incoming ([0xFF, 0xFF, id, len] ++ body)) = .error .badLength) ∧
  (∀ (id len : Byte) (body : List Byte), body.length = len.toNat →
    decode (.incoming ([0xFF, 0xFF, id, len] ++ body)) = .ok (.pktStatus id len body) ∧
    decode (.outgoing ([0xFF, 0xFF, id, len] ++ body)) =
      if id = 0xFF then .error .reservedId
      else if id = 0xFE then .ok (.pktBroadcast len body)
      else .ok (.pktInstruction id len body))

/-- R48, R63, and the frames of 95_test_vectors.md: a few words read right. -/
def Obligations.WordsAreReadRight : Prop :=
  decode (.command 0x01) = .ok .send ∧
  decode (.command 0x02) = .ok .broadcast ∧
  decode (.hostOp 0x40201) = .ok (.hostWr 0x002 0x01) ∧
  decode (.hostOp 0x50101) = .ok (.hostWr 0x101 0x01) ∧
  decode (.hostOp 0x00100) = .ok (.hostRd 0x001) ∧
  decode (.hostOp 0x20000) = .ok (.hostRd 0x200) ∧
  decode (.outgoing [0xFF, 0xFF, 0x01, 0x04, 0x02, 0x2B, 0x01, 0xCC]) =
    .ok (.pktInstruction 0x01 0x04 [0x02, 0x2B, 0x01, 0xCC]) ∧
  decode (.outgoing [0xFF, 0xFF, 0xFE, 0x04, 0x03, 0x03, 0x01, 0xF6]) =
    .ok (.pktBroadcast 0x04 [0x03, 0x03, 0x01, 0xF6]) ∧
  decode (.incoming [0xFF, 0xFF, 0x01, 0x03, 0x00, 0x20, 0xDB]) = .ok (.pktStatus 0x01 0x03 [0x00, 0x20, 0xDB])

/-- A step takes the oldest move off the list and executes the instruction that move carries. R8 says that the block steps
only on a move; that the moves stand in a list and a step takes the oldest is the model's choice, log entry 1, and so is
what code an answer brings to the decoder: the frame whose write is complete (log entry 12), the packet that a body answer
makes whole (log entry 13). -/
def Obligations.StepRunsTheDecodedInstruction : Prop :=
  ∀ (s : State) (m : Input) (rest : List Input) (c : Code) (i : Instr), s.inputs = m :: rest →
    fetch m { s with inputs := rest } = some c → decode c = .ok i →
    step s = exec i { s with inputs := rest }
end

