-- ==== Sys2Proof/Laws/Decode.lean ====
section
/-! SUPPORT. The small lemmas of the decoder and the encoder. -/

namespace Sys2Proof

@[simp] theorem hostOpIsWrite_encodeHostOp (d : Bool) (j : HostIndex) (v : Byte) :
    hostOpIsWrite (encodeHostOp d j v) = d := by
  simp only [hostOpIsWrite, encodeHostOp, BitVec.getLsbD_append]
  simp

@[simp] theorem hostOpIndex_encodeHostOp (d : Bool) (j : HostIndex) (v : Byte) :
    hostOpIndex (encodeHostOp d j v) = j := by
  ext i hi
  simp only [hostOpIndex, encodeHostOp, BitVec.getElem_extractLsb', BitVec.getLsbD_append]
  simp [hi]

@[simp] theorem hostOpData_encodeHostOp (d : Bool) (j : HostIndex) (v : Byte) :
    hostOpData (encodeHostOp d j v) = v := by
  ext i hi
  simp only [hostOpData, encodeHostOp, BitVec.getElem_extractLsb', BitVec.getLsbD_append]
  simp [hi]

/-- A word is its three fields. -/
theorem encodeHostOp_fields (w : HostWord) :
    encodeHostOp (hostOpIsWrite w) (hostOpIndex w) (hostOpData w) = w := by
  apply BitVec.eq_of_getLsbD_eq
  intro i hi
  simp only [encodeHostOp, hostOpIsWrite, hostOpIndex, hostOpData, BitVec.getLsbD_append,
    BitVec.getLsbD_extractLsb', BitVec.getLsbD_ofBool]
  by_cases h8 : i < 8
  · simp [h8]
  · by_cases h18 : i - 8 < 10
    · have : i - 8 + 8 = i := by omega
      simp [h8, h18, Nat.add_comm 8, this]
    · have : i = 18 := by omega
      subst this
      simp

/-- A HOSTOP word as a number. -/
theorem encodeHostOp_toNat (d : Bool) (j : HostIndex) (v : Byte) :
    (encodeHostOp d j v).toNat = d.toNat * 2 ^ 18 + j.toNat * 2 ^ 8 + v.toNat := by
  have := j.isLt
  have := v.isLt
  simp only [encodeHostOp, BitVec.toNat_append, BitVec.toNat_ofBool]
  rw [← Nat.shiftLeft_add_eq_or_of_lt v.isLt, ← Nat.shiftLeft_add_eq_or_of_lt j.isLt]
  simp only [Nat.shiftLeft_eq]
  omega

/-- The word of WR CTRL, v as a number (R63). -/
theorem encodeHostOp_ctrl (v : Byte) : encodeHostOp true 0x000 v = BitVec.ofNat 19 (0x40000 + v.toNat) := by
  have := v.isLt
  apply BitVec.eq_of_toNat_eq
  rw [encodeHostOp_toNat, BitVec.toNat_ofNat]
  simp
  omega

/-- A successful decoding, seen as an Option. -/
theorem toOption_eq_some {e : Except DecodeError Instr} {i : Instr} (h : e.toOption = some i) : e = .ok i := by
  cases e with
  | error e => cases h
  | ok a => simpa [Except.toOption] using h

/-- Splitting a packet's bytes gives its parts back, where it is as long as its byte 3 says. -/
theorem splitPacket_packetBytes (id len : Byte) (body : List Byte) (h : body.length = len.toNat) :
    splitPacket (Machine.packetBytes id len body) = .ok (id, len, body) := by
  simp [splitPacket, Machine.packetBytes, h]

/-- Fewer than 4 bytes are no header (R61). -/
theorem splitPacket_truncated {bytes : List Byte} (h : bytes.length < 4) :
    splitPacket bytes = .error .truncatedHeader := by
  unfold splitPacket
  split
  · simp only [List.length_cons] at h
    omega
  · rfl

/-- Both markers are checked (R50, R54). -/
theorem splitPacket_badMarker {m0 m1 : Byte} (id len : Byte) (body : List Byte) (h : m0 ≠ 0xFF ∨ m1 ≠ 0xFF) :
    splitPacket (m0 :: m1 :: id :: len :: body) = .error .badMarker :=
  if_neg fun hm => h.elim (· hm.1) (· hm.2)

/-- Byte 3 is the number of bytes after it (R66). -/
theorem splitPacket_badLength (id : Byte) {len : Byte} {body : List Byte} (h : body.length ≠ len.toNat) :
    splitPacket (Machine.packetBytes id len body) = .error .badLength := by
  simp [splitPacket, Machine.packetBytes, h]

/-- What a successful split says of the bytes. -/
theorem splitPacket_ok {bytes : List Byte} {id len : Byte} {body : List Byte}
    (h : splitPacket bytes = .ok (id, len, body)) :
    bytes = Machine.packetBytes id len body ∧ body.length = len.toNat := by
  unfold splitPacket at h
  split at h
  · split at h
    · rename_i hm
      split at h
      · simp only [Except.ok.injEq, Prod.mk.injEq] at h
        obtain ⟨rfl, rfl, rfl⟩ := h
        exact ⟨by rw [hm.1, hm.2, Machine.packetBytes], ‹_›⟩
      · cases h
    · cases h
  · cases h

/-- What the decoder reads from outgoing bytes. -/
theorem decodeOutgoing_ok {bytes : List Byte} {i : Instr} (h : decodeOutgoing bytes = .ok i) :
    (∃ len body, i = .pktBroadcast len body ∧ bytes = Machine.packetBytes Config.broadcastId len body ∧
        body.length = len.toNat) ∨
      (∃ id len body, i = .pktInstruction id len body ∧ bytes = Machine.packetBytes id len body ∧
        body.length = len.toNat ∧ id ≠ Config.broadcastId ∧ id ≠ 0xFF) := by
  unfold decodeOutgoing at h
  split at h
  · cases h
  · rename_i heq
    obtain ⟨hb, hl⟩ := splitPacket_ok heq
    split at h
    · rename_i hid
      cases h
      subst hid
      exact .inl ⟨_, _, rfl, hb, hl⟩
    · split at h
      · cases h
      · cases h
        exact .inr ⟨_, _, _, rfl, hb, hl, ‹_›, ‹_›⟩

/-- What the decoder reads from incoming bytes. -/
theorem decodeIncoming_ok {bytes : List Byte} {i : Instr} (h : decodeIncoming bytes = .ok i) :
    ∃ id len body, i = .pktStatus id len body ∧ bytes = Machine.packetBytes id len body ∧
      body.length = len.toNat := by
  unfold decodeIncoming at h
  split at h
  · cases h
  · rename_i heq
    obtain ⟨hb, hl⟩ := splitPacket_ok heq
    cases h
    exact ⟨_, _, _, rfl, hb, hl⟩

end Sys2Proof
end

