-- ==== Sys2Proof/Laws/Operands.lean ====
section
/-! SUPPORT. What the operand forms give: the register map by index, the staged parameters, the stored reply. -/

namespace Sys2Proof.Machine

/-- Index 0x100 + i is TX_PARAM[i]. -/
theorem regAt_txParam {j : HostIndex} (i : Fin Config.maxParams) (h : j.toNat = 0x100 + i.val) :
    regAt j = .txParam i := by
  have hi := i.isLt
  have hne : ∀ k : HostIndex, k.toNat < 0x100 → j ≠ k := by
    rintro k hk rfl
    omega
  unfold regAt
  simp only [hne 0 (by decide), hne 1 (by decide), hne 2 (by decide), hne 3 (by decide), hne 4 (by decide),
    hne 5 (by decide), hne 6 (by decide), hne 7 (by decide), if_false]
  rw [if_neg (by omega), dif_pos (by omega)]
  exact congrArg HostReg.txParam (Fin.ext (show j.toNat - 0x100 = i.val by omega))

/-- Index 0x200 + i is RX_PARAM[i]. -/
theorem regAt_rxParam {j : HostIndex} (i : Fin Config.maxParams) (h : j.toNat = 0x200 + i.val) :
    regAt j = .rxParam i := by
  have hi := i.isLt
  have hne : ∀ k : HostIndex, k.toNat < 0x100 → j ≠ k := by
    rintro k hk rfl
    omega
  unfold regAt
  simp only [hne 0 (by decide), hne 1 (by decide), hne 2 (by decide), hne 3 (by decide), hne 4 (by decide),
    hne 5 (by decide), hne 6 (by decide), hne 7 (by decide), if_false]
  rw [if_neg (by omega), dif_neg (by simp only [Config.maxParams]; omega), if_neg (by omega), dif_pos (by omega)]
  exact congrArg HostReg.rxParam (Fin.ext (show j.toNat - 0x200 = i.val by omega))

/-- The reserved indices. -/
theorem regAt_reserved {j : HostIndex}
    (h : (0x008 ≤ j.toNat ∧ j.toNat ≤ 0x0FF) ∨ (0x1FD ≤ j.toNat ∧ j.toNat ≤ 0x1FF) ∨ 0x2FD ≤ j.toNat) :
    regAt j = .reserved := by
  have hne : ∀ k : HostIndex, k.toNat < 8 → j ≠ k := by
    rintro k hk rfl
    omega
  unfold regAt
  simp only [hne 0 (by decide), hne 1 (by decide), hne 2 (by decide), hne 3 (by decide), hne 4 (by decide),
    hne 5 (by decide), hne 6 (by decide), hne 7 (by decide), if_false]
  rcases h with h | h | h
  · rw [if_pos (by omega)]
  · rw [if_neg (by omega), dif_neg (by simp only [Config.maxParams]; omega), if_pos (by omega)]
  · rw [if_neg (by omega), dif_neg (by simp only [Config.maxParams]; omega), if_neg (by omega),
      dif_neg (by simp only [Config.maxParams]; omega)]

/-- The whole register map: which register each index is. -/
theorem regAt_cases (j : HostIndex) :
    (j = 0 ∧ regAt j = .ctrl) ∨ (j = 1 ∧ regAt j = .status) ∨ (j = 2 ∧ regAt j = .cmdId) ∨
      (j = 3 ∧ regAt j = .cmdInstr) ∨ (j = 4 ∧ regAt j = .cmdNparams) ∨ (j = 5 ∧ regAt j = .rspId) ∨
      (j = 6 ∧ regAt j = .rspError) ∨ (j = 7 ∧ regAt j = .rspNparams) ∨
      (∃ i : Fin Config.maxParams, j.toNat = 0x100 + i.val ∧ regAt j = .txParam i) ∨
      (∃ i : Fin Config.maxParams, j.toNat = 0x200 + i.val ∧ regAt j = .rxParam i) ∨
      (((0x008 ≤ j.toNat ∧ j.toNat ≤ 0x0FF) ∨ (0x1FD ≤ j.toNat ∧ j.toNat ≤ 0x1FF) ∨ 0x2FD ≤ j.toNat) ∧
        regAt j = .reserved) := by
  by_cases h8 : j.toNat < 8
  · have hj : j = BitVec.ofNat 10 j.toNat := by simp
    generalize j.toNat = n at h8 hj
    subst hj
    have : n = 0 ∨ n = 1 ∨ n = 2 ∨ n = 3 ∨ n = 4 ∨ n = 5 ∨ n = 6 ∨ n = 7 := by omega
    rcases this with rfl | rfl | rfl | rfl | rfl | rfl | rfl | rfl <;> simp [regAt]
  · iterate 8 apply Or.inr
    by_cases ht : 0x100 ≤ j.toNat ∧ j.toNat < 0x1FD
    · exact .inl ⟨⟨j.toNat - 0x100, by simp only [Config.maxParams]; omega⟩, by simp only; omega,
        regAt_txParam _ (by simp only; omega)⟩
    · by_cases hr : 0x200 ≤ j.toNat ∧ j.toNat < 0x2FD
      · exact .inr (.inl ⟨⟨j.toNat - 0x200, by simp only [Config.maxParams]; omega⟩, by simp only; omega,
          regAt_rxParam _ (by simp only; omega)⟩)
      · have h : (0x008 ≤ j.toNat ∧ j.toNat ≤ 0x0FF) ∨ (0x1FD ≤ j.toNat ∧ j.toNat ≤ 0x1FF) ∨ 0x2FD ≤ j.toNat := by
          omega
        exact .inr (.inr ⟨h, regAt_reserved h⟩)

/-- No entry among the first n is unwritten. -/
theorem firstUnwritten_eq_none {b : Vector (Option Byte) Config.maxParams} {n : Nat} {p : List Byte}
    (h : b.toList.take n = p.map some) : firstUnwritten b n = none := by
  simp [firstUnwritten, h]

/-- The staged parameters, where the first n entries are written. -/
theorem stagedParams_eq {b : Vector (Option Byte) Config.maxParams} {n : Nat} {p : List Byte}
    (h : b.toList.take n = p.map some) : stagedParams b n = p := by
  simp [stagedParams, h, List.filterMap_map]

/-- The first entries of the buffer, from its entries one by one. -/
theorem take_eq_map_some {b : Vector (Option Byte) Config.maxParams} {p : List Byte}
    (hn : p.length ≤ Config.maxParams) (h : ∀ k, k < p.length → b[k]? = some p[k]?) :
    b.toList.take p.length = p.map some := by
  apply List.ext_getElem
  · simp [Vector.length_toList]
    omega
  · intro k h1 h2
    have hk : k < p.length := by simpa using h2
    have := h k hk
    rw [List.getElem_take, Vector.getElem_toList, List.getElem_map]
    rw [Vector.getElem?_eq_getElem (by omega), List.getElem?_eq_getElem hk] at this
    simpa using this

/-- With no unwritten entry among the first n, they are all bytes. -/
theorem take_of_firstUnwritten {b : Vector (Option Byte) Config.maxParams} {n : Nat}
    (h : firstUnwritten b n = none) : b.toList.take n = (stagedParams b n).map some := by
  have hs : ∀ x ∈ b.toList.take n, x.isSome = true := by
    intro x hx
    have := List.findIdx?_eq_none_iff.mp h x hx
    simpa using this
  unfold stagedParams
  generalize b.toList.take n = l at hs
  induction l with
  | nil => rfl
  | cons x l ih =>
    obtain ⟨v, rfl⟩ := Option.isSome_iff_exists.mp (hs x (by simp))
    simpa using ih fun y hy => hs y (by simp [hy])

/-- How many staged parameters there are. -/
theorem stagedParams_length {b : Vector (Option Byte) Config.maxParams} {n : Nat} (hn : n ≤ Config.maxParams)
    (h : firstUnwritten b n = none) : (stagedParams b n).length = n := by
  have := congrArg List.length (take_of_firstUnwritten h)
  simp only [List.length_take, Vector.length_toList, List.length_map] at this
  omega

/-- Each entry of the stored reply. -/
theorem storedReply_getElem (old : Vector Byte Config.maxParams) (q : List Byte) (k : Fin Config.maxParams) :
    (storedReply old q)[k] = q.getD k.val old[k] := by
  simp [storedReply]

/-- A frame's length. -/
theorem buildFrame_length (id instr : Byte) (p : List Byte) : (buildFrame id instr p).length = p.length + 6 := by
  simp [buildFrame, packetBytes, outgoingBody]

/-- The length byte does not wrap (R51). -/
theorem lengthByte_toNat {n : Nat} (h : n ≤ Config.maxParams) : (lengthByte n).toNat = n + 2 := by
  simp only [Config.maxParams] at h
  simp [lengthByte]
  omega

/-- The parts of a body, as R54 lays them out. -/
theorem body_parts (err c : Byte) (q : List Byte) :
    bodyCode (err :: q ++ [c]) = err ∧ bodyParams (err :: q ++ [c]) = q ∧ bodyChecksum (err :: q ++ [c]) = c := by
  refine ⟨rfl, by simp [bodyParams], ?_⟩
  rw [bodyChecksum, List.getLastD_eq_getLast?, List.getLast?_concat, Option.getD_some]

/-- Distinct indices have distinct platform addresses, wherever the window lies (R30). -/
theorem platformAddress_injective {j k : HostIndex} (h : Config.platformAddress j = Config.platformAddress k) :
    j = k := by
  unfold Config.platformAddress at h
  exact BitVec.eq_of_toNat_eq (by omega)

end Sys2Proof.Machine
end

