-- ==== Sys2Proof/Laws/State.lean ====
section
/-! SUPPORT. One lemma per field per update of State, so that no later proof unfolds a record update. -/

namespace Sys2Proof.Machine

@[simp] theorem isRefusal_done : HostReply.done.isRefusal = false := rfl
@[simp] theorem isRefusal_noAccess : HostReply.noAccess.isRefusal = false := rfl
@[simp] theorem isRefusal_value (v : Byte) : (HostReply.value v).isRefusal = false := rfl
@[simp] theorem isRefusal_refusal (r : RefuseReason) : (HostReply.refusal r).isRefusal = true := rfl
@[simp] theorem isRefusal_noValue (f : ReadFault) : (HostReply.noValue f).isRefusal = false := rfl
@[simp] theorem isNoValue_done : HostReply.done.isNoValue = false := rfl
@[simp] theorem isNoValue_noAccess : HostReply.noAccess.isNoValue = false := rfl
@[simp] theorem isNoValue_value (v : Byte) : (HostReply.value v).isNoValue = false := rfl
@[simp] theorem isNoValue_refusal (r : RefuseReason) : (HostReply.refusal r).isNoValue = false := rfl
@[simp] theorem isNoValue_noValue (f : ReadFault) : (HostReply.noValue f).isNoValue = true := rfl


@[simp] theorem respond_phase (r : HostReply) (s : State) : (respond r s).phase = s.phase := rfl
@[simp] theorem respond_kind (r : HostReply) (s : State) : (respond r s).kind = s.kind := rfl
@[simp] theorem respond_txFrame (r : HostReply) (s : State) : (respond r s).txFrame = s.txFrame := rfl
@[simp] theorem respond_latId (r : HostReply) (s : State) : (respond r s).latId = s.latId := rfl
@[simp] theorem respond_latLen (r : HostReply) (s : State) : (respond r s).latLen = s.latLen := rfl
@[simp] theorem respond_cmdId (r : HostReply) (s : State) : (respond r s).cmdId = s.cmdId := rfl
@[simp] theorem respond_cmdInstr (r : HostReply) (s : State) : (respond r s).cmdInstr = s.cmdInstr := rfl
@[simp] theorem respond_cmdNparams (r : HostReply) (s : State) : (respond r s).cmdNparams = s.cmdNparams := rfl
@[simp] theorem respond_txParam (r : HostReply) (s : State) : (respond r s).txParam = s.txParam := rfl
@[simp] theorem respond_result (r : HostReply) (s : State) : (respond r s).result = s.result := rfl
@[simp] theorem respond_rspValid (r : HostReply) (s : State) : (respond r s).rspValid = s.rspValid := rfl
@[simp] theorem respond_rspId (r : HostReply) (s : State) : (respond r s).rspId = s.rspId := rfl
@[simp] theorem respond_rspError (r : HostReply) (s : State) : (respond r s).rspError = s.rspError := rfl
@[simp] theorem respond_rspNparams (r : HostReply) (s : State) : (respond r s).rspNparams = s.rspNparams := rfl
@[simp] theorem respond_rxParam (r : HostReply) (s : State) : (respond r s).rxParam = s.rxParam := rfl
@[simp] theorem respond_refused (r : HostReply) (s : State) : (respond r s).refused = (s.refused || r.isRefusal) := rfl
@[simp] theorem respond_faulted (r : HostReply) (s : State) : (respond r s).faulted = (s.faulted || r.isNoValue) := rfl
@[simp] theorem respond_hostReply (r : HostReply) (s : State) : (respond r s).hostReply = r := rfl
@[simp] theorem respond_inputs (r : HostReply) (s : State) : (respond r s).inputs = s.inputs := rfl

@[simp] theorem refuse_phase (r : RefuseReason) (s : State) : (refuse r s).phase = s.phase := rfl
@[simp] theorem refuse_kind (r : RefuseReason) (s : State) : (refuse r s).kind = s.kind := rfl
@[simp] theorem refuse_txFrame (r : RefuseReason) (s : State) : (refuse r s).txFrame = s.txFrame := rfl
@[simp] theorem refuse_latId (r : RefuseReason) (s : State) : (refuse r s).latId = s.latId := rfl
@[simp] theorem refuse_latLen (r : RefuseReason) (s : State) : (refuse r s).latLen = s.latLen := rfl
@[simp] theorem refuse_cmdId (r : RefuseReason) (s : State) : (refuse r s).cmdId = s.cmdId := rfl
@[simp] theorem refuse_cmdInstr (r : RefuseReason) (s : State) : (refuse r s).cmdInstr = s.cmdInstr := rfl
@[simp] theorem refuse_cmdNparams (r : RefuseReason) (s : State) : (refuse r s).cmdNparams = s.cmdNparams := rfl
@[simp] theorem refuse_txParam (r : RefuseReason) (s : State) : (refuse r s).txParam = s.txParam := rfl
@[simp] theorem refuse_result (r : RefuseReason) (s : State) : (refuse r s).result = s.result := rfl
@[simp] theorem refuse_rspValid (r : RefuseReason) (s : State) : (refuse r s).rspValid = s.rspValid := rfl
@[simp] theorem refuse_rspId (r : RefuseReason) (s : State) : (refuse r s).rspId = s.rspId := rfl
@[simp] theorem refuse_rspError (r : RefuseReason) (s : State) : (refuse r s).rspError = s.rspError := rfl
@[simp] theorem refuse_rspNparams (r : RefuseReason) (s : State) : (refuse r s).rspNparams = s.rspNparams := rfl
@[simp] theorem refuse_rxParam (r : RefuseReason) (s : State) : (refuse r s).rxParam = s.rxParam := rfl
@[simp] theorem refuse_refused (r : RefuseReason) (s : State) :
    (refuse r s).refused = true := by simp [refuse, respond, HostReply.isRefusal, HostReply.isNoValue]
@[simp] theorem refuse_faulted (r : RefuseReason) (s : State) :
    (refuse r s).faulted = s.faulted := by simp [refuse, respond, HostReply.isRefusal, HostReply.isNoValue]
@[simp] theorem refuse_hostReply (r : RefuseReason) (s : State) : (refuse r s).hostReply = .refusal r := rfl
@[simp] theorem refuse_inputs (r : RefuseReason) (s : State) : (refuse r s).inputs = s.inputs := rfl

@[simp] theorem finish_phase (r : Result) (s : State) : (finish r s).phase = .idle := rfl
@[simp] theorem finish_kind (r : Result) (s : State) : (finish r s).kind = s.kind := rfl
@[simp] theorem finish_txFrame (r : Result) (s : State) : (finish r s).txFrame = s.txFrame := rfl
@[simp] theorem finish_latId (r : Result) (s : State) : (finish r s).latId = s.latId := rfl
@[simp] theorem finish_latLen (r : Result) (s : State) : (finish r s).latLen = s.latLen := rfl
@[simp] theorem finish_cmdId (r : Result) (s : State) : (finish r s).cmdId = s.cmdId := rfl
@[simp] theorem finish_cmdInstr (r : Result) (s : State) : (finish r s).cmdInstr = s.cmdInstr := rfl
@[simp] theorem finish_cmdNparams (r : Result) (s : State) : (finish r s).cmdNparams = s.cmdNparams := rfl
@[simp] theorem finish_txParam (r : Result) (s : State) : (finish r s).txParam = s.txParam := rfl
@[simp] theorem finish_result (r : Result) (s : State) : (finish r s).result = r := rfl
@[simp] theorem finish_rspValid (r : Result) (s : State) : (finish r s).rspValid = s.rspValid := rfl
@[simp] theorem finish_rspId (r : Result) (s : State) : (finish r s).rspId = s.rspId := rfl
@[simp] theorem finish_rspError (r : Result) (s : State) : (finish r s).rspError = s.rspError := rfl
@[simp] theorem finish_rspNparams (r : Result) (s : State) : (finish r s).rspNparams = s.rspNparams := rfl
@[simp] theorem finish_rxParam (r : Result) (s : State) : (finish r s).rxParam = s.rxParam := rfl
@[simp] theorem finish_refused (r : Result) (s : State) : (finish r s).refused = s.refused := rfl
@[simp] theorem finish_faulted (r : Result) (s : State) : (finish r s).faulted = s.faulted := rfl
@[simp] theorem finish_hostReply (r : Result) (s : State) : (finish r s).hostReply = s.hostReply := rfl
@[simp] theorem finish_inputs (r : Result) (s : State) : (finish r s).inputs = s.inputs := rfl

@[simp] theorem setCmdId_phase (v : Byte) (s : State) : (setCmdId v s).phase = s.phase := rfl
@[simp] theorem setCmdId_kind (v : Byte) (s : State) : (setCmdId v s).kind = s.kind := rfl
@[simp] theorem setCmdId_txFrame (v : Byte) (s : State) : (setCmdId v s).txFrame = s.txFrame := rfl
@[simp] theorem setCmdId_latId (v : Byte) (s : State) : (setCmdId v s).latId = s.latId := rfl
@[simp] theorem setCmdId_latLen (v : Byte) (s : State) : (setCmdId v s).latLen = s.latLen := rfl
@[simp] theorem setCmdId_cmdId (v : Byte) (s : State) : (setCmdId v s).cmdId = v := rfl
@[simp] theorem setCmdId_cmdInstr (v : Byte) (s : State) : (setCmdId v s).cmdInstr = s.cmdInstr := rfl
@[simp] theorem setCmdId_cmdNparams (v : Byte) (s : State) : (setCmdId v s).cmdNparams = s.cmdNparams := rfl
@[simp] theorem setCmdId_txParam (v : Byte) (s : State) : (setCmdId v s).txParam = s.txParam := rfl
@[simp] theorem setCmdId_result (v : Byte) (s : State) : (setCmdId v s).result = s.result := rfl
@[simp] theorem setCmdId_rspValid (v : Byte) (s : State) : (setCmdId v s).rspValid = s.rspValid := rfl
@[simp] theorem setCmdId_rspId (v : Byte) (s : State) : (setCmdId v s).rspId = s.rspId := rfl
@[simp] theorem setCmdId_rspError (v : Byte) (s : State) : (setCmdId v s).rspError = s.rspError := rfl
@[simp] theorem setCmdId_rspNparams (v : Byte) (s : State) : (setCmdId v s).rspNparams = s.rspNparams := rfl
@[simp] theorem setCmdId_rxParam (v : Byte) (s : State) : (setCmdId v s).rxParam = s.rxParam := rfl
@[simp] theorem setCmdId_refused (v : Byte) (s : State) : (setCmdId v s).refused = s.refused := rfl
@[simp] theorem setCmdId_faulted (v : Byte) (s : State) : (setCmdId v s).faulted = s.faulted := rfl
@[simp] theorem setCmdId_hostReply (v : Byte) (s : State) : (setCmdId v s).hostReply = s.hostReply := rfl
@[simp] theorem setCmdId_inputs (v : Byte) (s : State) : (setCmdId v s).inputs = s.inputs := rfl

@[simp] theorem setCmdInstr_phase (v : Byte) (s : State) : (setCmdInstr v s).phase = s.phase := rfl
@[simp] theorem setCmdInstr_kind (v : Byte) (s : State) : (setCmdInstr v s).kind = s.kind := rfl
@[simp] theorem setCmdInstr_txFrame (v : Byte) (s : State) : (setCmdInstr v s).txFrame = s.txFrame := rfl
@[simp] theorem setCmdInstr_latId (v : Byte) (s : State) : (setCmdInstr v s).latId = s.latId := rfl
@[simp] theorem setCmdInstr_latLen (v : Byte) (s : State) : (setCmdInstr v s).latLen = s.latLen := rfl
@[simp] theorem setCmdInstr_cmdId (v : Byte) (s : State) : (setCmdInstr v s).cmdId = s.cmdId := rfl
@[simp] theorem setCmdInstr_cmdInstr (v : Byte) (s : State) : (setCmdInstr v s).cmdInstr = v := rfl
@[simp] theorem setCmdInstr_cmdNparams (v : Byte) (s : State) : (setCmdInstr v s).cmdNparams = s.cmdNparams := rfl
@[simp] theorem setCmdInstr_txParam (v : Byte) (s : State) : (setCmdInstr v s).txParam = s.txParam := rfl
@[simp] theorem setCmdInstr_result (v : Byte) (s : State) : (setCmdInstr v s).result = s.result := rfl
@[simp] theorem setCmdInstr_rspValid (v : Byte) (s : State) : (setCmdInstr v s).rspValid = s.rspValid := rfl
@[simp] theorem setCmdInstr_rspId (v : Byte) (s : State) : (setCmdInstr v s).rspId = s.rspId := rfl
@[simp] theorem setCmdInstr_rspError (v : Byte) (s : State) : (setCmdInstr v s).rspError = s.rspError := rfl
@[simp] theorem setCmdInstr_rspNparams (v : Byte) (s : State) : (setCmdInstr v s).rspNparams = s.rspNparams := rfl
@[simp] theorem setCmdInstr_rxParam (v : Byte) (s : State) : (setCmdInstr v s).rxParam = s.rxParam := rfl
@[simp] theorem setCmdInstr_refused (v : Byte) (s : State) : (setCmdInstr v s).refused = s.refused := rfl
@[simp] theorem setCmdInstr_faulted (v : Byte) (s : State) : (setCmdInstr v s).faulted = s.faulted := rfl
@[simp] theorem setCmdInstr_hostReply (v : Byte) (s : State) : (setCmdInstr v s).hostReply = s.hostReply := rfl
@[simp] theorem setCmdInstr_inputs (v : Byte) (s : State) : (setCmdInstr v s).inputs = s.inputs := rfl

@[simp] theorem setCmdNparams_phase (v : Byte) (s : State) : (setCmdNparams v s).phase = s.phase := rfl
@[simp] theorem setCmdNparams_kind (v : Byte) (s : State) : (setCmdNparams v s).kind = s.kind := rfl
@[simp] theorem setCmdNparams_txFrame (v : Byte) (s : State) : (setCmdNparams v s).txFrame = s.txFrame := rfl
@[simp] theorem setCmdNparams_latId (v : Byte) (s : State) : (setCmdNparams v s).latId = s.latId := rfl
@[simp] theorem setCmdNparams_latLen (v : Byte) (s : State) : (setCmdNparams v s).latLen = s.latLen := rfl
@[simp] theorem setCmdNparams_cmdId (v : Byte) (s : State) : (setCmdNparams v s).cmdId = s.cmdId := rfl
@[simp] theorem setCmdNparams_cmdInstr (v : Byte) (s : State) : (setCmdNparams v s).cmdInstr = s.cmdInstr := rfl
@[simp] theorem setCmdNparams_cmdNparams (v : Byte) (s : State) : (setCmdNparams v s).cmdNparams = v := rfl
@[simp] theorem setCmdNparams_txParam (v : Byte) (s : State) : (setCmdNparams v s).txParam = s.txParam := rfl
@[simp] theorem setCmdNparams_result (v : Byte) (s : State) : (setCmdNparams v s).result = s.result := rfl
@[simp] theorem setCmdNparams_rspValid (v : Byte) (s : State) : (setCmdNparams v s).rspValid = s.rspValid := rfl
@[simp] theorem setCmdNparams_rspId (v : Byte) (s : State) : (setCmdNparams v s).rspId = s.rspId := rfl
@[simp] theorem setCmdNparams_rspError (v : Byte) (s : State) : (setCmdNparams v s).rspError = s.rspError := rfl
@[simp] theorem setCmdNparams_rspNparams (v : Byte) (s : State) : (setCmdNparams v s).rspNparams = s.rspNparams := rfl
@[simp] theorem setCmdNparams_rxParam (v : Byte) (s : State) : (setCmdNparams v s).rxParam = s.rxParam := rfl
@[simp] theorem setCmdNparams_refused (v : Byte) (s : State) : (setCmdNparams v s).refused = s.refused := rfl
@[simp] theorem setCmdNparams_faulted (v : Byte) (s : State) : (setCmdNparams v s).faulted = s.faulted := rfl
@[simp] theorem setCmdNparams_hostReply (v : Byte) (s : State) : (setCmdNparams v s).hostReply = s.hostReply := rfl
@[simp] theorem setCmdNparams_inputs (v : Byte) (s : State) : (setCmdNparams v s).inputs = s.inputs := rfl

@[simp] theorem setTxParam_phase (i : Fin Config.maxParams) (v : Byte) (s : State) :
    (setTxParam i v s).phase = s.phase := rfl
@[simp] theorem setTxParam_kind (i : Fin Config.maxParams) (v : Byte) (s : State) :
    (setTxParam i v s).kind = s.kind := rfl
@[simp] theorem setTxParam_txFrame (i : Fin Config.maxParams) (v : Byte) (s : State) :
    (setTxParam i v s).txFrame = s.txFrame := rfl
@[simp] theorem setTxParam_latId (i : Fin Config.maxParams) (v : Byte) (s : State) :
    (setTxParam i v s).latId = s.latId := rfl
@[simp] theorem setTxParam_latLen (i : Fin Config.maxParams) (v : Byte) (s : State) :
    (setTxParam i v s).latLen = s.latLen := rfl
@[simp] theorem setTxParam_cmdId (i : Fin Config.maxParams) (v : Byte) (s : State) :
    (setTxParam i v s).cmdId = s.cmdId := rfl
@[simp] theorem setTxParam_cmdInstr (i : Fin Config.maxParams) (v : Byte) (s : State) :
    (setTxParam i v s).cmdInstr = s.cmdInstr := rfl
@[simp] theorem setTxParam_cmdNparams (i : Fin Config.maxParams) (v : Byte) (s : State) :
    (setTxParam i v s).cmdNparams = s.cmdNparams := rfl
@[simp] theorem setTxParam_txParam (i : Fin Config.maxParams) (v : Byte) (s : State) :
    (setTxParam i v s).txParam = s.txParam.set i (some v) := rfl
@[simp] theorem setTxParam_result (i : Fin Config.maxParams) (v : Byte) (s : State) :
    (setTxParam i v s).result = s.result := rfl
@[simp] theorem setTxParam_rspValid (i : Fin Config.maxParams) (v : Byte) (s : State) :
    (setTxParam i v s).rspValid = s.rspValid := rfl
@[simp] theorem setTxParam_rspId (i : Fin Config.maxParams) (v : Byte) (s : State) :
    (setTxParam i v s).rspId = s.rspId := rfl
@[simp] theorem setTxParam_rspError (i : Fin Config.maxParams) (v : Byte) (s : State) :
    (setTxParam i v s).rspError = s.rspError := rfl
@[simp] theorem setTxParam_rspNparams (i : Fin Config.maxParams) (v : Byte) (s : State) :
    (setTxParam i v s).rspNparams = s.rspNparams := rfl
@[simp] theorem setTxParam_rxParam (i : Fin Config.maxParams) (v : Byte) (s : State) :
    (setTxParam i v s).rxParam = s.rxParam := rfl
@[simp] theorem setTxParam_refused (i : Fin Config.maxParams) (v : Byte) (s : State) :
    (setTxParam i v s).refused = s.refused := rfl
@[simp] theorem setTxParam_faulted (i : Fin Config.maxParams) (v : Byte) (s : State) :
    (setTxParam i v s).faulted = s.faulted := rfl
@[simp] theorem setTxParam_hostReply (i : Fin Config.maxParams) (v : Byte) (s : State) :
    (setTxParam i v s).hostReply = s.hostReply := rfl
@[simp] theorem setTxParam_inputs (i : Fin Config.maxParams) (v : Byte) (s : State) :
    (setTxParam i v s).inputs = s.inputs := rfl

@[simp] theorem accept_phase (k : Kind) (id : Byte) (s : State) : (accept k id s).phase = .txWait := rfl
@[simp] theorem accept_kind (k : Kind) (id : Byte) (s : State) : (accept k id s).kind = k := rfl
@[simp] theorem accept_txFrame (k : Kind) (id : Byte) (s : State) :
    (accept k id s).txFrame = buildFrame id s.cmdInstr (stagedParams s.txParam s.cmdNparams.toNat) := rfl
@[simp] theorem accept_latId (k : Kind) (id : Byte) (s : State) : (accept k id s).latId = s.latId := rfl
@[simp] theorem accept_latLen (k : Kind) (id : Byte) (s : State) : (accept k id s).latLen = s.latLen := rfl
@[simp] theorem accept_cmdId (k : Kind) (id : Byte) (s : State) : (accept k id s).cmdId = s.cmdId := rfl
@[simp] theorem accept_cmdInstr (k : Kind) (id : Byte) (s : State) : (accept k id s).cmdInstr = s.cmdInstr := rfl
@[simp] theorem accept_cmdNparams (k : Kind) (id : Byte) (s : State) : (accept k id s).cmdNparams = s.cmdNparams := rfl
@[simp] theorem accept_txParam (k : Kind) (id : Byte) (s : State) : (accept k id s).txParam = s.txParam := rfl
@[simp] theorem accept_result (k : Kind) (id : Byte) (s : State) : (accept k id s).result = .none := rfl
@[simp] theorem accept_rspValid (k : Kind) (id : Byte) (s : State) : (accept k id s).rspValid = false := rfl
@[simp] theorem accept_rspId (k : Kind) (id : Byte) (s : State) : (accept k id s).rspId = s.rspId := rfl
@[simp] theorem accept_rspError (k : Kind) (id : Byte) (s : State) : (accept k id s).rspError = s.rspError := rfl
@[simp] theorem accept_rspNparams (k : Kind) (id : Byte) (s : State) : (accept k id s).rspNparams = s.rspNparams := rfl
@[simp] theorem accept_rxParam (k : Kind) (id : Byte) (s : State) : (accept k id s).rxParam = s.rxParam := rfl
@[simp] theorem accept_refused (k : Kind) (id : Byte) (s : State) : (accept k id s).refused = s.refused := rfl
@[simp] theorem accept_faulted (k : Kind) (id : Byte) (s : State) : (accept k id s).faulted = s.faulted := rfl
@[simp] theorem accept_hostReply (k : Kind) (id : Byte) (s : State) : (accept k id s).hostReply = s.hostReply := rfl
@[simp] theorem accept_inputs (k : Kind) (id : Byte) (s : State) : (accept k id s).inputs = s.inputs := rfl

@[simp] theorem latchHeader_phase (id len : Byte) (s : State) : (latchHeader id len s).phase = .bodyWait := rfl
@[simp] theorem latchHeader_kind (id len : Byte) (s : State) : (latchHeader id len s).kind = s.kind := rfl
@[simp] theorem latchHeader_txFrame (id len : Byte) (s : State) : (latchHeader id len s).txFrame = s.txFrame := rfl
@[simp] theorem latchHeader_latId (id len : Byte) (s : State) : (latchHeader id len s).latId = id := rfl
@[simp] theorem latchHeader_latLen (id len : Byte) (s : State) : (latchHeader id len s).latLen = len := rfl
@[simp] theorem latchHeader_cmdId (id len : Byte) (s : State) : (latchHeader id len s).cmdId = s.cmdId := rfl
@[simp] theorem latchHeader_cmdInstr (id len : Byte) (s : State) : (latchHeader id len s).cmdInstr = s.cmdInstr := rfl
@[simp] theorem latchHeader_cmdNparams (id len : Byte) (s : State) :
    (latchHeader id len s).cmdNparams = s.cmdNparams := rfl
@[simp] theorem latchHeader_txParam (id len : Byte) (s : State) : (latchHeader id len s).txParam = s.txParam := rfl
@[simp] theorem latchHeader_result (id len : Byte) (s : State) : (latchHeader id len s).result = s.result := rfl
@[simp] theorem latchHeader_rspValid (id len : Byte) (s : State) : (latchHeader id len s).rspValid = s.rspValid := rfl
@[simp] theorem latchHeader_rspId (id len : Byte) (s : State) : (latchHeader id len s).rspId = s.rspId := rfl
@[simp] theorem latchHeader_rspError (id len : Byte) (s : State) : (latchHeader id len s).rspError = s.rspError := rfl
@[simp] theorem latchHeader_rspNparams (id len : Byte) (s : State) :
    (latchHeader id len s).rspNparams = s.rspNparams := rfl
@[simp] theorem latchHeader_rxParam (id len : Byte) (s : State) : (latchHeader id len s).rxParam = s.rxParam := rfl
@[simp] theorem latchHeader_refused (id len : Byte) (s : State) : (latchHeader id len s).refused = s.refused := rfl
@[simp] theorem latchHeader_faulted (id len : Byte) (s : State) : (latchHeader id len s).faulted = s.faulted := rfl
@[simp] theorem latchHeader_hostReply (id len : Byte) (s : State) :
    (latchHeader id len s).hostReply = s.hostReply := rfl
@[simp] theorem latchHeader_inputs (id len : Byte) (s : State) : (latchHeader id len s).inputs = s.inputs := rfl

@[simp] theorem storeReply_phase (body : List Byte) (s : State) : (storeReply body s).phase = s.phase := rfl
@[simp] theorem storeReply_kind (body : List Byte) (s : State) : (storeReply body s).kind = s.kind := rfl
@[simp] theorem storeReply_txFrame (body : List Byte) (s : State) : (storeReply body s).txFrame = s.txFrame := rfl
@[simp] theorem storeReply_latId (body : List Byte) (s : State) : (storeReply body s).latId = s.latId := rfl
@[simp] theorem storeReply_latLen (body : List Byte) (s : State) : (storeReply body s).latLen = s.latLen := rfl
@[simp] theorem storeReply_cmdId (body : List Byte) (s : State) : (storeReply body s).cmdId = s.cmdId := rfl
@[simp] theorem storeReply_cmdInstr (body : List Byte) (s : State) : (storeReply body s).cmdInstr = s.cmdInstr := rfl
@[simp] theorem storeReply_cmdNparams (body : List Byte) (s : State) :
    (storeReply body s).cmdNparams = s.cmdNparams := rfl
@[simp] theorem storeReply_txParam (body : List Byte) (s : State) : (storeReply body s).txParam = s.txParam := rfl
@[simp] theorem storeReply_result (body : List Byte) (s : State) : (storeReply body s).result = s.result := rfl
@[simp] theorem storeReply_rspValid (body : List Byte) (s : State) : (storeReply body s).rspValid = true := rfl
@[simp] theorem storeReply_rspId (body : List Byte) (s : State) : (storeReply body s).rspId = s.latId := rfl
@[simp] theorem storeReply_rspError (body : List Byte) (s : State) : (storeReply body s).rspError = bodyCode body := rfl
@[simp] theorem storeReply_rspNparams (body : List Byte) (s : State) :
    (storeReply body s).rspNparams = s.latLen - 2 := rfl
@[simp] theorem storeReply_rxParam (body : List Byte) (s : State) :
    (storeReply body s).rxParam = storedReply s.rxParam (bodyParams body) := rfl
@[simp] theorem storeReply_refused (body : List Byte) (s : State) : (storeReply body s).refused = s.refused := rfl
@[simp] theorem storeReply_faulted (body : List Byte) (s : State) : (storeReply body s).faulted = s.faulted := rfl
@[simp] theorem storeReply_hostReply (body : List Byte) (s : State) : (storeReply body s).hostReply = s.hostReply := rfl
@[simp] theorem storeReply_inputs (body : List Byte) (s : State) : (storeReply body s).inputs = s.inputs := rfl

@[simp] theorem awaitHeader_phase (s : State) : (awaitHeader s).phase = .hdrWait := rfl
@[simp] theorem awaitHeader_kind (s : State) : (awaitHeader s).kind = s.kind := rfl
@[simp] theorem awaitHeader_txFrame (s : State) : (awaitHeader s).txFrame = s.txFrame := rfl
@[simp] theorem awaitHeader_latId (s : State) : (awaitHeader s).latId = s.latId := rfl
@[simp] theorem awaitHeader_latLen (s : State) : (awaitHeader s).latLen = s.latLen := rfl
@[simp] theorem awaitHeader_cmdId (s : State) : (awaitHeader s).cmdId = s.cmdId := rfl
@[simp] theorem awaitHeader_cmdInstr (s : State) : (awaitHeader s).cmdInstr = s.cmdInstr := rfl
@[simp] theorem awaitHeader_cmdNparams (s : State) : (awaitHeader s).cmdNparams = s.cmdNparams := rfl
@[simp] theorem awaitHeader_txParam (s : State) : (awaitHeader s).txParam = s.txParam := rfl
@[simp] theorem awaitHeader_result (s : State) : (awaitHeader s).result = s.result := rfl
@[simp] theorem awaitHeader_rspValid (s : State) : (awaitHeader s).rspValid = s.rspValid := rfl
@[simp] theorem awaitHeader_rspId (s : State) : (awaitHeader s).rspId = s.rspId := rfl
@[simp] theorem awaitHeader_rspError (s : State) : (awaitHeader s).rspError = s.rspError := rfl
@[simp] theorem awaitHeader_rspNparams (s : State) : (awaitHeader s).rspNparams = s.rspNparams := rfl
@[simp] theorem awaitHeader_rxParam (s : State) : (awaitHeader s).rxParam = s.rxParam := rfl
@[simp] theorem awaitHeader_refused (s : State) : (awaitHeader s).refused = s.refused := rfl
@[simp] theorem awaitHeader_faulted (s : State) : (awaitHeader s).faulted = s.faulted := rfl
@[simp] theorem awaitHeader_hostReply (s : State) : (awaitHeader s).hostReply = s.hostReply := rfl
@[simp] theorem awaitHeader_inputs (s : State) : (awaitHeader s).inputs = s.inputs := rfl

@[simp] theorem setInputs_phase (rest : List Input) (s : State) : (setInputs rest s).phase = s.phase := rfl
@[simp] theorem setInputs_kind (rest : List Input) (s : State) : (setInputs rest s).kind = s.kind := rfl
@[simp] theorem setInputs_txFrame (rest : List Input) (s : State) : (setInputs rest s).txFrame = s.txFrame := rfl
@[simp] theorem setInputs_latId (rest : List Input) (s : State) : (setInputs rest s).latId = s.latId := rfl
@[simp] theorem setInputs_latLen (rest : List Input) (s : State) : (setInputs rest s).latLen = s.latLen := rfl
@[simp] theorem setInputs_cmdId (rest : List Input) (s : State) : (setInputs rest s).cmdId = s.cmdId := rfl
@[simp] theorem setInputs_cmdInstr (rest : List Input) (s : State) : (setInputs rest s).cmdInstr = s.cmdInstr := rfl
@[simp] theorem setInputs_cmdNparams (rest : List Input) (s : State) :
    (setInputs rest s).cmdNparams = s.cmdNparams := rfl
@[simp] theorem setInputs_txParam (rest : List Input) (s : State) : (setInputs rest s).txParam = s.txParam := rfl
@[simp] theorem setInputs_result (rest : List Input) (s : State) : (setInputs rest s).result = s.result := rfl
@[simp] theorem setInputs_rspValid (rest : List Input) (s : State) : (setInputs rest s).rspValid = s.rspValid := rfl
@[simp] theorem setInputs_rspId (rest : List Input) (s : State) : (setInputs rest s).rspId = s.rspId := rfl
@[simp] theorem setInputs_rspError (rest : List Input) (s : State) : (setInputs rest s).rspError = s.rspError := rfl
@[simp] theorem setInputs_rspNparams (rest : List Input) (s : State) :
    (setInputs rest s).rspNparams = s.rspNparams := rfl
@[simp] theorem setInputs_rxParam (rest : List Input) (s : State) : (setInputs rest s).rxParam = s.rxParam := rfl
@[simp] theorem setInputs_refused (rest : List Input) (s : State) : (setInputs rest s).refused = s.refused := rfl
@[simp] theorem setInputs_faulted (rest : List Input) (s : State) : (setInputs rest s).faulted = s.faulted := rfl
@[simp] theorem setInputs_hostReply (rest : List Input) (s : State) : (setInputs rest s).hostReply = s.hostReply := rfl
@[simp] theorem setInputs_inputs (rest : List Input) (s : State) : (setInputs rest s).inputs = rest := rfl

@[simp] theorem resetBlock_phase (s : State) : (resetBlock s).phase = .idle := rfl
@[simp] theorem resetBlock_kind (s : State) : (resetBlock s).kind = s.kind := rfl
@[simp] theorem resetBlock_txFrame (s : State) : (resetBlock s).txFrame = [] := rfl
@[simp] theorem resetBlock_latId (s : State) : (resetBlock s).latId = s.latId := rfl
@[simp] theorem resetBlock_latLen (s : State) : (resetBlock s).latLen = s.latLen := rfl
@[simp] theorem resetBlock_cmdId (s : State) : (resetBlock s).cmdId = 0 := rfl
@[simp] theorem resetBlock_cmdInstr (s : State) : (resetBlock s).cmdInstr = 0 := rfl
@[simp] theorem resetBlock_cmdNparams (s : State) : (resetBlock s).cmdNparams = 0 := rfl
@[simp] theorem resetBlock_txParam (s : State) : (resetBlock s).txParam = Vector.replicate Config.maxParams none := rfl
@[simp] theorem resetBlock_result (s : State) : (resetBlock s).result = .none := rfl
@[simp] theorem resetBlock_rspValid (s : State) : (resetBlock s).rspValid = false := rfl
@[simp] theorem resetBlock_rspId (s : State) : (resetBlock s).rspId = s.rspId := rfl
@[simp] theorem resetBlock_rspError (s : State) : (resetBlock s).rspError = s.rspError := rfl
@[simp] theorem resetBlock_rspNparams (s : State) : (resetBlock s).rspNparams = s.rspNparams := rfl
@[simp] theorem resetBlock_rxParam (s : State) : (resetBlock s).rxParam = s.rxParam := rfl
@[simp] theorem resetBlock_refused (s : State) : (resetBlock s).refused = s.refused := rfl
@[simp] theorem resetBlock_faulted (s : State) : (resetBlock s).faulted = s.faulted := rfl
@[simp] theorem resetBlock_hostReply (s : State) : (resetBlock s).hostReply = s.hostReply := rfl
@[simp] theorem resetBlock_inputs (s : State) : (resetBlock s).inputs = s.inputs := rfl

end Sys2Proof.Machine
end

