-- ==== Sys2Proof/Laws/Ops.lean ====
section
/-! SUPPORT. For each shared operation, once, everything it can do; the proofs cite these and unfold nothing. -/

namespace Sys2Proof.Machine

/-- What the completed write of a frame does. -/
theorem txDone_cases (s : State) :
    (s.kind = .unicast ∧ txDone s = awaitHeader s) ∨ (s.kind = .bcast ∧ txDone s = finish .ok s) := by
  cases h : s.kind <;> simp [txDone, h]

/-- A header answer is latched exactly when it has both markers and two more bytes. -/
theorem hdrAnswer_cases (bytes : List Byte) (s : State) :
    (∃ id len rest, bytes = packetBytes id len rest ∧ hdrAnswer bytes s = latchHeader id len s) ∨
      (∀ id len rest, bytes ≠ packetBytes id len rest) ∧ hdrAnswer bytes s = finish .commError s := by
  unfold hdrAnswer packetBytes
  split
  · split
    · rename_i h
      obtain ⟨rfl, rfl⟩ := h
      exact .inl ⟨_, _, _, rfl, rfl⟩
    · rename_i h
      refine .inr ⟨?_, rfl⟩
      rintro id len rest heq
      simp only [List.cons.injEq] at heq
      exact h ⟨heq.1, heq.2.1⟩
  · rename_i h
    refine .inr ⟨?_, rfl⟩
    rintro id len rest rfl
    exact h _ _ _ _ _ rfl

/-- A body answer is stored exactly when it is long enough, has room for the error byte and the checksum, and validates. -/
theorem bodyAnswer_cases (bytes : List Byte) (s : State) :
    (s.latLen.toNat ≤ bytes.length ∧ 2 ≤ s.latLen.toNat ∧
        checksumValid (coveredBytes s.latId s.latLen bytes) (bodyChecksum bytes) = true ∧
        bodyAnswer bytes s = finish .ok (storeReply bytes s)) ∨
      (bytes.length < s.latLen.toNat ∨ s.latLen.toNat < 2 ∨
        checksumValid (coveredBytes s.latId s.latLen bytes) (bodyChecksum bytes) = false) ∧
        bodyAnswer bytes s = finish .commError s := by
  unfold bodyAnswer
  split
  · exact .inr ⟨.inl ‹_›, rfl⟩
  · split
    · exact .inr ⟨.inr (.inl ‹_›), rfl⟩
    · split
      · exact .inl ⟨by omega, by omega, ‹_›, rfl⟩
      · exact .inr ⟨.inr (.inr (Bool.not_eq_true _ ▸ ‹¬ checksumValid _ _ = true›)), rfl⟩

/-- A header answer of at most four bytes is taken. -/
theorem deliver_header {bytes : List Byte} {s : State} (hp : s.phase = .hdrWait) (hl : bytes.length ≤ 4) :
    deliver (.data bytes) s = .next (hdrAnswer bytes s) := by
  simp only [deliver, hp]
  exact if_pos hl

/-- A header answer of more than four bytes is outside the contract. -/
theorem deliver_header_overlong {bytes : List Byte} {s : State} (hp : s.phase = .hdrWait) (hl : 4 < bytes.length) :
    deliver (.data bytes) s = .fault .overlongAnswer := by
  simp only [deliver, hp]
  exact if_neg (by simp only [Config.headerCount]; omega)

/-- A body answer of at most `latLen` bytes is taken. -/
theorem deliver_body {bytes : List Byte} {s : State} (hp : s.phase = .bodyWait)
    (hl : bytes.length ≤ s.latLen.toNat) : deliver (.data bytes) s = .next (bodyAnswer bytes s) := by
  simp only [deliver, hp]
  exact if_pos hl

/-- A body answer of more than `latLen` bytes is outside the contract. -/
theorem deliver_body_overlong {bytes : List Byte} {s : State} (hp : s.phase = .bodyWait)
    (hl : s.latLen.toNat < bytes.length) : deliver (.data bytes) s = .fault .overlongAnswer := by
  simp only [deliver, hp]
  exact if_neg (by omega)

/-- A failed request ends the exchange with TRANSPORT_FAULT, whichever request it was. -/
theorem deliver_fail {s : State} (hp : s.phase ≠ .idle) : deliver .fail s = .next (finish .transportFault s) := by
  cases h : s.phase <;> simp_all [deliver]

/-- A completed write. -/
theorem deliver_ok {s : State} (hp : s.phase = .txWait) : deliver .ok s = .next (txDone s) := by
  simp [deliver, hp]

/-- Every way `deliver` answers a next state. -/
theorem deliver_next_cases {a : Answer} {s t : State} (h : deliver a s = .next t) :
    (s.phase = .txWait ∧ a = .ok ∧ t = txDone s) ∨
      (s.phase ≠ .idle ∧ a = .fail ∧ t = finish .transportFault s) ∨
      (∃ bytes, s.phase = .hdrWait ∧ a = .data bytes ∧ bytes.length ≤ 4 ∧ t = hdrAnswer bytes s) ∨
      (∃ bytes, s.phase = .bodyWait ∧ a = .data bytes ∧ bytes.length ≤ s.latLen.toNat ∧ t = bodyAnswer bytes s) := by
  cases hp : s.phase <;> cases a <;> simp only [deliver, hp, reduceCtorEq, Host.Outcome.next.injEq] at h
  case txWait.ok => exact .inl ⟨rfl, rfl, h.symm⟩
  case txWait.fail => exact .inr (.inl ⟨nofun, rfl, h.symm⟩)
  case hdrWait.fail => exact .inr (.inl ⟨nofun, rfl, h.symm⟩)
  case bodyWait.fail => exact .inr (.inl ⟨nofun, rfl, h.symm⟩)
  case hdrWait.data bytes =>
    split at h
    · exact .inr (.inr (.inl ⟨bytes, rfl, rfl, ‹_›, by simpa using h.symm⟩))
    · cases h
  case bodyWait.data bytes =>
    split at h
    · exact .inr (.inr (.inr ⟨bytes, rfl, rfl, ‹_›, by simpa using h.symm⟩))
    · cases h

/-- Every way a command ends: refused by name, or accepted with its checks met. -/
theorem acceptWithParams_cases (k : Kind) (id : Byte) (s : State) :
    (∃ r, acceptWithParams k id s = refuse r s) ∨
      s.cmdNparams.toNat ≤ Config.maxParams ∧ firstUnwritten s.txParam s.cmdNparams.toNat = none ∧
        acceptWithParams k id s = respond .done (accept k id s) := by
  unfold acceptWithParams
  split
  · exact .inl ⟨_, rfl⟩
  · split
    · exact .inl ⟨_, rfl⟩
    · exact .inr ⟨by omega, ‹_›, rfl⟩

/-- Everything a CTRL write can do. -/
theorem command_cases (v : Byte) (s : State) :
    (∃ r, command v s = refuse r s) ∨
      (s.phase = .idle ∧ s.cmdNparams.toNat ≤ Config.maxParams ∧
        firstUnwritten s.txParam s.cmdNparams.toNat = none ∧
        ((v = 0x01 ∧ s.cmdId.toNat ≤ 0xFD ∧ command v s = respond .done (accept .unicast s.cmdId s)) ∨
          (v = 0x02 ∧ command v s = respond .done (accept .bcast Config.broadcastId s)))) := by
  by_cases hp : s.phase = .idle
  · by_cases h1 : v = 0x01
    · subst h1
      by_cases hid : 0xFE ≤ s.cmdId.toNat
      · exact .inl ⟨.sendBadId s.cmdId, by simp [command, hp, acceptSend, hid]⟩
      · have hc : command 0x01 s = acceptWithParams .unicast s.cmdId s := by simp [command, hp, acceptSend, hid]
        obtain ⟨r, hr⟩ | ⟨hn, hu, ha⟩ := acceptWithParams_cases .unicast s.cmdId s
        · exact .inl ⟨r, hc.trans hr⟩
        · exact .inr ⟨hp, hn, hu, .inl ⟨rfl, by omega, hc.trans ha⟩⟩
    · by_cases h2 : v = 0x02
      · subst h2
        have hc : command 0x02 s = acceptWithParams .bcast Config.broadcastId s := by
          simp [command, hp, acceptBroadcast]
        obtain ⟨r, hr⟩ | ⟨hn, hu, ha⟩ := acceptWithParams_cases .bcast Config.broadcastId s
        · exact .inl ⟨r, hc.trans hr⟩
        · exact .inr ⟨hp, hn, hu, .inr ⟨rfl, hc.trans ha⟩⟩
      · exact .inl ⟨.reservedCommand v, by
          unfold command
          rw [if_neg (not_not_intro hp), if_neg h1, if_neg h2]⟩
  · exact .inl ⟨.commandWhileBusy, by simp [command, hp]⟩

/-- Everything a host write can do, and at which index. -/
theorem hostWrite_cases (j : HostIndex) (v : Byte) (s : State) :
    (j = 0x000 ∧ hostWrite j v s = command v s) ∨
      (j = 0x002 ∧ hostWrite j v s = respond .done (setCmdId v s)) ∨
      (j = 0x003 ∧ hostWrite j v s = respond .done (setCmdInstr v s)) ∨
      (j = 0x004 ∧ hostWrite j v s = respond .done (setCmdNparams v s)) ∨
      (∃ i : Fin Config.maxParams, j.toNat = 0x100 + i.val ∧ hostWrite j v s = respond .done (setTxParam i v s)) ∨
      hostWrite j v s = refuse (.badAccess j) s := by
  unfold hostWrite
  obtain ⟨hj, h⟩ | ⟨_, h⟩ | ⟨hj, h⟩ | ⟨hj, h⟩ | ⟨hj, h⟩ | ⟨_, h⟩ | ⟨_, h⟩ | ⟨_, h⟩ | ⟨i, hj, h⟩ | ⟨_, _, h⟩ | ⟨_, h⟩ :=
    regAt_cases j <;> rw [h]
  · exact .inl ⟨hj, rfl⟩
  · exact .inr (.inr (.inr (.inr (.inr rfl))))
  · exact .inr (.inl ⟨hj, rfl⟩)
  · exact .inr (.inr (.inl ⟨hj, rfl⟩))
  · exact .inr (.inr (.inr (.inl ⟨hj, rfl⟩)))
  · exact .inr (.inr (.inr (.inr (.inr rfl))))
  · exact .inr (.inr (.inr (.inr (.inr rfl))))
  · exact .inr (.inr (.inr (.inr (.inr rfl))))
  · exact .inr (.inr (.inr (.inr (.inl ⟨i, hj, rfl⟩))))
  · exact .inr (.inr (.inr (.inr (.inr rfl))))
  · exact .inr (.inr (.inr (.inr (.inr rfl))))

/-- When the write of a frame is a move of the transport, and what it then does. -/
theorem frameWritten_next {frame : List Byte} {s t : State} (h : frameWritten frame s = .next t) :
    s.phase = .txWait ∧ s.txFrame = frame ∧ t = txDone s := by
  unfold frameWritten at h
  split at h
  · split at h
    · exact ⟨‹_›, ‹_›, by simpa using h.symm⟩
    · cases h
  · cases h

/-- The step a packet takes is the one the outstanding receive asks for. -/
theorem execPktStatus_cases (id len : Byte) (body : List Byte) (s : State) :
    (s.phase = .hdrWait ∧ execPktStatus id len body s =
        .next (hdrAnswer [Config.marker, Config.marker, id, len] s)) ∨
      (s.phase = .bodyWait ∧ execPktStatus id len body s = .next (bodyAnswer (body.take s.latLen.toNat) s)) ∨
      ((s.phase = .idle ∨ s.phase = .txWait) ∧ execPktStatus id len body s = .next s) := by
  cases h : s.phase <;> simp [execPktStatus, h]

end Sys2Proof.Machine
end

