-- ==== Sys2Proof/Laws/PerInstr.lean ====
section
/-! SUPPORT. What holds of each instruction as syntax, one lemma per constructor: its encoding has the fixed bits that its
row of spec/opcode_table.json gives (R65). -/

namespace Sys2Proof.Laws.TableRow

/-- The number the table matches a code by: the CTRL byte, the HOSTOP word, or a packet's first four bytes with byte 0 in
bits 31:24 (R65). -/
def firstWord : Code → Nat
  | .command v => v.toNat
  | .hostOp w => w.toNat
  | .outgoing bytes =>
    ((bytes.getD 0 0).toNat * 256 + (bytes.getD 1 0).toNat) * 65536 + (bytes.getD 2 0).toNat * 256 + (bytes.getD 3 0).toNat
  | .incoming bytes =>
    ((bytes.getD 0 0).toNat * 256 + (bytes.getD 1 0).toNat) * 65536 + (bytes.getD 2 0).toNat * 256 + (bytes.getD 3 0).toNat

/-- A bit field of a number. -/
def field (n hi lo : Nat) : Nat :=
  n / 2 ^ lo % 2 ^ (hi + 1 - lo)

/-- The fixed fields of the instruction's row, and for PKT_INSTRUCTION the extra constraint on byte 2. -/
def Statement (i : Instr) : Prop :=
  i.wellFormed = true →
    match i with
    | .send => field (firstWord (encode i)) 7 0 = 1
    | .broadcast => field (firstWord (encode i)) 7 0 = 2
    | .pktInstruction _ _ _ =>
      field (firstWord (encode i)) 31 16 = 0xFFFF ∧ field (firstWord (encode i)) 15 8 ≤ 0xFD
    | .pktBroadcast _ _ => field (firstWord (encode i)) 31 8 = 0xFFFFFE
    | .pktStatus _ _ _ => field (firstWord (encode i)) 31 16 = 0xFFFF
    | .hostWr _ _ => field (firstWord (encode i)) 18 18 = 1
    | .hostRd _ => field (firstWord (encode i)) 18 18 = 0 ∧ field (firstWord (encode i)) 7 0 = 0

theorem send : Statement .send := by
  intro _
  rfl

theorem broadcast : Statement .broadcast := by
  intro _
  rfl

theorem pktInstruction (id len : Byte) (body : List Byte) : Statement (.pktInstruction id len body) := by
  intro h
  simp only [Instr.wellFormed, Bool.and_eq_true, decide_eq_true_eq] at h
  have := len.isLt
  simp [field, encode, firstWord, Machine.packetBytes]
  omega

theorem pktBroadcast (len : Byte) (body : List Byte) : Statement (.pktBroadcast len body) := by
  intro _
  have := len.isLt
  simp [field, encode, firstWord, Machine.packetBytes]
  omega

theorem pktStatus (id len : Byte) (body : List Byte) : Statement (.pktStatus id len body) := by
  intro _
  have := len.isLt
  have := id.isLt
  simp [field, encode, firstWord, Machine.packetBytes]
  omega

theorem hostWr (j : HostIndex) (v : Byte) : Statement (.hostWr j v) := by
  intro _
  have := j.isLt
  have := v.isLt
  simp only [field, encode, firstWord, encodeHostOp_toNat, Bool.toNat_true]
  omega

theorem hostRd (j : HostIndex) : Statement (.hostRd j) := by
  intro _
  have := j.isLt
  simp only [field, encode, firstWord, encodeHostOp_toNat, Bool.toNat_false, BitVec.ofNat_eq_ofNat, BitVec.toNat_zero]
  omega

end Sys2Proof.Laws.TableRow
end

