-- ==== Sys2Proof/Laws/Step.lean ====
section
/-! SUPPORT. What one step does with each kind of move. -/

namespace Sys2Proof.Machine

/-- With no move the block stays. -/
theorem step_nil {s : State} (h : s.inputs = []) : step s = .next s := by
  simp [step, h]

/-- A CTRL byte is Command(v), decoded or not. -/
theorem step_command {s : State} {v : Byte} {rest : List Input} (h : s.inputs = .command v :: rest) :
    step s = .next (command v (setInputs rest s)) := by
  simp only [step, h, fetchInstr, fetch, Option.bind_some, decode, decodeCommand]
  split
  · rename_i hi
    split at hi
    · rename_i hv
      cases hi
      simp [exec, execSend, hv]
    · split at hi
      · rename_i hv
        cases hi
        simp [exec, execBroadcast, hv]
      · cases hi
  · rfl

/-- A well-formed write word is the host write it encodes. -/
theorem step_hostOp_write {s : State} {w : HostWord} {rest : List Input} (h : s.inputs = .hostOp w :: rest)
    (hw : hostOpIsWrite w = true) :
    step s = .next (hostWrite (hostOpIndex w) (hostOpData w) (setInputs rest s)) := by
  simp [step, h, fetchInstr, fetch, decode, decodeHostOp, hw, Except.toOption, exec, execHostWr]

/-- A well-formed read word is the host read it encodes. -/
theorem step_hostOp_read {s : State} {w : HostWord} {rest : List Input} (h : s.inputs = .hostOp w :: rest)
    (hw : hostOpIsWrite w = false) (hd : hostOpData w = 0) :
    step s = .next (respond (hostRead (hostOpIndex w) (setInputs rest s)) (setInputs rest s)) := by
  simp [step, h, fetchInstr, fetch, decode, decodeHostOp, hw, hd, Except.toOption, exec, execHostRd]

/-- A malformed word is refused. -/
theorem step_hostOp_bad {s : State} {w : HostWord} {rest : List Input} (h : s.inputs = .hostOp w :: rest)
    (hw : hostOpIsWrite w = false) (hd : hostOpData w ≠ 0) :
    step s = .next (refuse .badHostWord (setInputs rest s)) := by
  have he : decode (.hostOp w) = .error .badHostWord := by
    show decodeHostOp w = _
    unfold decodeHostOp
    rw [hw, if_neg nofun, if_neg hd]
  simp [step, h, fetchInstr, fetch, he, Except.toOption, perform]

/-- A late answer is never delivered. -/
theorem step_lateAnswer {s : State} {a : Answer} {rest : List Input} (h : s.inputs = .lateAnswer a :: rest) :
    step s = .next (setInputs rest s) := by
  simp [step, h, fetchInstr, fetch, perform]

/-- Reset. -/
theorem step_reset {s : State} {rest : List Input} (h : s.inputs = .reset :: rest) :
    step s = .next (resetBlock (setInputs rest s)) := by
  simp [step, h, fetchInstr, fetch, perform]

/-- The frame in flight, executed as the packet it decodes to, is the transport's answer ok. -/
theorem exec_outgoing {s : State} {i : Instr} (hp : s.phase = .txWait) (h : decodeOutgoing s.txFrame = .ok i) :
    exec i s = .next (txDone s) := by
  obtain ⟨len, body, rfl, hb, -⟩ | ⟨id, len, body, rfl, hb, -⟩ := decodeOutgoing_ok h
  · simp [exec, execPktBroadcast, frameWritten, hp, hb]
  · simp [exec, execPktInstruction, frameWritten, hp, hb]

/-- The packet a body answer makes whole, executed, is that body answer. -/
theorem exec_incoming {s : State} {bytes : List Byte} {i : Instr} (hp : s.phase = .bodyWait)
    (h : decodeIncoming (packetBytes s.latId s.latLen bytes) = .ok i) :
    exec i s = .next (bodyAnswer bytes s) ∧ bytes.length = s.latLen.toNat := by
  obtain ⟨id, len, body, rfl, hb, hl⟩ := decodeIncoming_ok h
  simp only [packetBytes, List.cons.injEq, true_and] at hb
  obtain ⟨rfl, rfl, rfl⟩ := hb
  exact ⟨by simp [exec, execPktStatus, hp, ← hl], hl⟩

/-- Where an answer makes a packet the decoder reads, executing that packet is delivering the answer. -/
theorem exec_answer {s : State} {a : Answer} {i : Instr} (h : fetchInstr (.answer a) s = some i) :
    exec i s = deliver a s := by
  obtain ⟨c, hc, hd⟩ := Option.bind_eq_some_iff.mp h
  have hd := toOption_eq_some hd
  cases a with
  | fail => cases hc
  | ok =>
    simp only [fetch, Option.ite_none_right_eq_some, Option.some.injEq] at hc
    obtain ⟨hp, rfl⟩ := hc
    rw [exec_outgoing hp hd]
    simp only [deliver, hp]
  | data bytes =>
    simp only [fetch, Option.ite_none_right_eq_some, Option.some.injEq] at hc
    obtain ⟨hp, rfl⟩ := hc
    obtain ⟨he, hl⟩ := exec_incoming hp hd
    rw [he]
    simp only [deliver, hp]
    rw [if_pos (by omega)]

/-- An answer is delivered to the outstanding request, whether or not it makes a packet the decoder reads. -/
theorem step_answer {s : State} {a : Answer} {rest : List Input} (h : s.inputs = .answer a :: rest) :
    step s = deliver a (setInputs rest s) := by
  simp only [step, h]
  split
  · exact exec_answer ‹_›
  · rfl

/-- One step of several. -/
theorem stepsFrom_succ {n : Nat} {s t : State} (h : step s = .next t) : stepsFrom (n + 1) s = stepsFrom n t := by
  simp only [stepsFrom, h]

/-- Everything a step that answers a next state can do. -/
theorem step_cases {s t : State} (h : step s = .next t) :
    (s.inputs = [] ∧ t = s) ∨
      ∃ m rest, s.inputs = m :: rest ∧
        ((∃ v, m = .command v ∧ t = command v (setInputs rest s)) ∨
          (∃ w, m = .hostOp w ∧
            ((∃ j v, w = encodeHostOp true j v ∧ t = hostWrite j v (setInputs rest s)) ∨
              (∃ j, w = encodeHostOp false j 0 ∧ t = respond (hostRead j (setInputs rest s)) (setInputs rest s)) ∨
              t = refuse .badHostWord (setInputs rest s))) ∨
          (∃ a, m = .answer a ∧ deliver a (setInputs rest s) = .next t) ∨
          (∃ a, m = .lateAnswer a ∧ t = setInputs rest s) ∨
          (m = .reset ∧ t = resetBlock (setInputs rest s))) := by
  rcases hi : s.inputs with _ | ⟨m, rest⟩
  · rw [step_nil hi] at h
    exact .inl ⟨rfl, by simpa using h.symm⟩
  · refine .inr ⟨m, rest, rfl, ?_⟩
    cases m with
    | command v =>
      rw [step_command hi] at h
      exact .inl ⟨v, rfl, by simpa using h.symm⟩
    | hostOp w =>
      refine .inr (.inl ⟨w, rfl, ?_⟩)
      by_cases hw : hostOpIsWrite w = true
      · rw [step_hostOp_write hi hw] at h
        exact .inl ⟨_, _, by rw [← hw, encodeHostOp_fields], by simpa using h.symm⟩
      · have hw : hostOpIsWrite w = false := by simpa using hw
        by_cases hd : hostOpData w = 0
        · rw [step_hostOp_read hi hw hd] at h
          exact .inr (.inl ⟨_, by rw [← hw, ← hd, encodeHostOp_fields], by simpa using h.symm⟩)
        · rw [step_hostOp_bad hi hw hd] at h
          exact .inr (.inr (by simpa using h.symm))
    | answer a =>
      rw [step_answer hi] at h
      exact .inr (.inr (.inl ⟨a, rfl, h⟩))
    | lateAnswer a =>
      rw [step_lateAnswer hi] at h
      exact .inr (.inr (.inr (.inl ⟨a, rfl, by simpa using h.symm⟩)))
    | reset =>
      rw [step_reset hi] at h
      exact .inr (.inr (.inr (.inr ⟨rfl, by simpa using h.symm⟩)))

end Sys2Proof.Machine
end

