-- ==== Sys2Proof/Tests/Slice0.lean ====
section
/-! SUPPORT. Tests: ill-formed terms that WellFormed refuses, words written out from the encodings of 30_encoding.md, vectors
of 95_test_vectors.md, one step each, and for every obligation with hypotheses a concrete state that meets them. -/

namespace Sys2Proof.Tests

open Sys2Proof Sys2Proof.Machine

-- One theorem at a time: in parallel, so many kernel evaluations ask for more threads than a checker may have.
set_option Elab.async false

/-! ### Helpers -/

/-- The outcome is a next state that `p` accepts. -/
def nextIs (o : Outcome) (p : State → Bool) : Bool :=
  match o with
  | .next t => p t
  | .fault _ => false
  | .refused _ => false

/-- The outcome is this fault. -/
def faultIs (o : Outcome) (f : Fault) : Bool :=
  match o with
  | .next _ => false
  | .fault g => decide (g = f)
  | .refused _ => false

theorem next_of_nextIs {o : Outcome} {p : State → Bool} (h : nextIs o p = true) : ∃ t, o = .next t ∧ p t = true := by
  cases o with
  | next t => exact ⟨t, rfl, h⟩
  | fault _ => cases h
  | refused _ => cases h

theorem fault_of_faultIs {o : Outcome} {f : Fault} (h : faultIs o f = true) : o = .fault f := by
  cases o with
  | next _ => cases h
  | fault g => exact congrArg _ (of_decide_eq_true h)
  | refused _ => cases h

/-- E3 staged: CMD_ID 01, CMD_INSTR 02, TX_PARAM[0..1] = 2B 01. -/
def staged : State :=
  { State.reset with
    cmdId := 0x01
    cmdInstr := 0x02
    cmdNparams := 0x02
    txParam := (State.reset.txParam.set 0 (some 0x2B)).set 1 (some 0x01) }

/-- All 253 entries written and used. -/
def full : State :=
  { State.reset with
    cmdId := 0xFD
    cmdInstr := 0x03
    cmdNparams := 0xFD
    txParam := Vector.replicate 253 (some 0x00) }

/-- The frame of E3. -/
def frameE3 : List Byte := [0xFF, 0xFF, 0x01, 0x04, 0x02, 0x2B, 0x01, 0xCC]

/-- The frame of E4. -/
def frameE4 : List Byte := [0xFF, 0xFF, 0xFE, 0x04, 0x03, 0x03, 0x01, 0xF6]

/-- E3 with its frame in flight. -/
def sending : State :=
  { staged with phase := .txWait, txFrame := frameE3 }

/-- E3 waiting for the header. -/
def awaiting : State :=
  { sending with phase := .hdrWait }

/-- E3 waiting for the body, header FF FF 01 03. -/
def receiving : State :=
  { sending with phase := .bodyWait, latId := 0x01, latLen := 0x03 }

/-- E4 with its frame in flight. -/
def broadcasting : State :=
  { State.reset with phase := .txWait, kind := .bcast, cmdInstr := 0x03, txFrame := frameE4 }

/-- E3 finished OK. -/
def replied : State :=
  { sending with
    phase := .idle
    result := .ok
    rspValid := true
    rspId := 0x01
    rspNparams := 0x01
    rxParam := State.reset.rxParam.set 0 0x20 }

/-- A state with these moves to come. -/
def moves (s : State) (l : List Input) : State :=
  { s with inputs := l }

/-! ### WellFormed: one ill-formed term for each check, and terms that pass -/

theorem test_wf_id : (Instr.pktInstruction 0xFE 0x02 [0x02, 0xFD]).wellFormed = false := by decide

theorem test_wf_lengthDiffers : (Instr.pktInstruction 0x01 0x03 [0x01, 0xFB]).wellFormed = false := by decide

theorem test_wf_tooShort : (Instr.pktInstruction 0x01 0x01 [0xFD]).wellFormed = false := by decide

theorem test_wf_checksum : (Instr.pktInstruction 0x01 0x02 [0x01, 0xFA]).wellFormed = false := by decide

theorem test_wf_broadcastLength : (Instr.pktBroadcast 0x03 [0x03, 0xFC]).wellFormed = false := by decide

theorem test_wf_broadcastChecksum : (Instr.pktBroadcast 0x02 [0x03, 0xFD]).wellFormed = false := by decide

theorem test_wf_statusLength : (Instr.pktStatus 0x01 0x03 [0x00, 0x20]).wellFormed = false := by decide

theorem test_wf_good :
    (Instr.pktInstruction 0x01 0x04 [0x02, 0x2B, 0x01, 0xCC]).wellFormed = true ∧
    (Instr.pktInstruction 0xFD 0x02 [0x00, 0x00]).wellFormed = true ∧
    (Instr.pktBroadcast 0x04 [0x03, 0x03, 0x01, 0xF6]).wellFormed = true ∧
    (Instr.pktStatus 0x01 0x00 []).wellFormed = true ∧
    Instr.send.wellFormed = true ∧ Instr.broadcast.wellFormed = true ∧
    (Instr.hostWr 0x3FF 0xFF).wellFormed = true ∧ (Instr.hostRd 0x3FF).wellFormed = true := by decide

/-! ### Decoding, words written out from R48, R50, R53, R54 and R63 -/

theorem test_decode_send : decode (.command 0b00000001) = .ok .send := by decide

theorem test_decode_broadcast : decode (.command 0b00000010) = .ok .broadcast := by decide

theorem test_decode_reservedCommand :
    decode (.command 0x00) = .error (.reservedCommand 0x00) ∧
    decode (.command 0x03) = .error (.reservedCommand 0x03) ∧
    decode (.command 0x81) = .error (.reservedCommand 0x81) := by decide

/-- Bit 18, index 0x1FC in bits 17:8, data 0xA5 in bits 7:0. -/
theorem test_decode_hostWr : decode (.hostOp 0b1_0111111100_10100101) = .ok (.hostWr 0x1FC 0xA5) := by decide

theorem test_decode_hostRd : decode (.hostOp 0b0_1000000001_00000000) = .ok (.hostRd 0x201) := by decide

theorem test_decode_badHostWord : decode (.hostOp 0b0_1000000001_00000001) = .error .badHostWord := by decide

theorem test_decode_pktInstruction :
    decode (.outgoing [0xFF, 0xFF, 0x00, 0x03, 0xFF, 0xFF, 0xFE]) = .ok (.pktInstruction 0x00 0x03 [0xFF, 0xFF, 0xFE]) := by
  decide

theorem test_decode_pktBroadcast :
    decode (.outgoing [0xFF, 0xFF, 0xFE, 0x02, 0x03, 0xFC]) = .ok (.pktBroadcast 0x02 [0x03, 0xFC]) := by decide

theorem test_decode_pktStatus :
    decode (.incoming [0xFF, 0xFF, 0xFF, 0x02, 0x00, 0xFE]) = .ok (.pktStatus 0xFF 0x02 [0x00, 0xFE]) := by decide

theorem test_decode_packetsRejected :
    decode (.outgoing [0xFF, 0xFE, 0x01, 0x02, 0x01, 0xFB]) = .error .badMarker ∧
    decode (.outgoing [0xFF, 0xFF, 0xFF, 0x02, 0x00, 0xFE]) = .error .reservedId ∧
    decode (.outgoing [0xFF, 0xFF, 0x01, 0x02, 0x01]) = .error .badLength ∧
    decode (.incoming [0xFF, 0xFF, 0x01, 0x02, 0x00, 0xFC, 0x00]) = .error .badLength ∧
    decode (.incoming [0xFE, 0xFF, 0x01, 0x00]) = .error .badMarker ∧
    decode (.incoming [0xFF, 0xFF, 0x01]) = .error .truncatedHeader := by decide

/-- The words of P1 and P2 in 95_test_vectors.md section 3, as the notation of R64 gives them. -/
theorem test_encode_notation :
    sendWords 0x01 0x02 [0x2B, 0x01] = [0x40201, 0x40302, 0x40402, 0x5002B, 0x50101, 0x40001] ∧
    broadcastWords 0x03 [0x03, 0x01] = [0x40303, 0x40402, 0x50003, 0x50101, 0x40002] ∧
    waitWord = 0x00100 ∧ getrspWords 1 = [0x00100, 0x00500, 0x00600, 0x00700, 0x20000] := by decide

theorem test_tableWord :
    decodeTableWord 8 0x01 = some .send ∧ decodeTableWord 8 0x02 = some .broadcast ∧
    decodeTableWord 8 0x03 = none ∧
    decodeTableWord 32 0xFFFF0102 = some (.pktInstruction 0x01 0x02 [0x00, 0x00]) ∧
    decodeTableWord 32 0xFFFFFE00 = some (.pktBroadcast 0x00 []) ∧
    decodeTableWord 32 0xFFFFFF00 = some (.pktStatus 0xFF 0x00 []) ∧
    decodeTableWord 24 0x40201 = some (.hostWr 0x002 0x01) ∧
    decodeTableWord 24 0x00100 = some (.hostRd 0x001) := by decide

/-- The step after `withFetchWord` runs the row's instruction: SEND from reset presents FF FF 00 02 00 FD (section 2.4), a
written frame goes to HDR_WAIT (R75) or finishes OK (R88), a body with L = 0 finishes COMM_ERROR (R79). -/
theorem test_fetchWord :
    nextIs (step (State.reset.withFetchWord 8 0x01)) (fun t => decide (t.txFrame = [0xFF, 0xFF, 0x00, 0x02, 0x00, 0xFD])) = true ∧
    nextIs (step (State.reset.withFetchWord 32 0xFFFF0000)) (fun t => decide (t.phase = .hdrWait)) = true ∧
    nextIs (step (State.reset.withFetchWord 32 0xFFFFFE00)) (fun t => decide (t.result = .ok)) = true ∧
    nextIs (step (State.reset.withFetchWord 32 0xFFFFFF00)) (fun t => decide (t.result = .commError)) = true ∧
    nextIs (step (State.reset.withFetchWord 24 0x40207)) (fun t => decide (t.cmdId = 0x07)) = true ∧
    nextIs (step (State.reset.withFetchWord 24 0x00100)) (fun t => decide (t.hostReply = .value 0x00)) = true := by
  decide +kernel

/-! ### The checksum and the frame, 95_test_vectors.md sections 2.1 and 2.2 -/

theorem test_checksum_vectors :
    checksum [] = 0xFF ∧ checksum [0x00] = 0xFF ∧ checksum [0xFF] = 0x00 ∧ checksum [0xFE, 0x01] = 0x00 ∧
    checksum [0x80, 0x80] = 0xFF ∧ checksum [0xFF, 0xFF, 0xFF] = 0x02 ∧ checksum [0x01, 0x02, 0x01] = 0xFB ∧
    checksum [0x01, 0x05, 0x03, 0x0C, 0x64, 0xAA] = 0xDC ∧
    checksum [0x01, 0x04, 0x02, 0x2B, 0x01] = 0xCC ∧ checksum [0x2B, 0x01, 0x01, 0x04, 0x02] = 0xCC := by decide

theorem test_validate_vectors :
    checksumValid [0x01, 0x03, 0x00, 0x20] 0xDB = true ∧ checksumValid [0x01, 0x03, 0x00, 0x20] 0xDA = false ∧
    checksumValid [0x01, 0x04, 0x00, 0x20, 0x21] 0xB9 = true ∧ checksumValid [0x01, 0x04, 0x00, 0x21, 0x20] 0xB9 = true ∧
    checksumValid [0x01, 0x04, 0x00, 0x21, 0x21] 0xB9 = false := by decide

theorem test_frame_vectors :
    buildFrame 0x01 0x01 [] = [0xFF, 0xFF, 0x01, 0x02, 0x01, 0xFB] ∧
    buildFrame 0xFD 0x00 [] = [0xFF, 0xFF, 0xFD, 0x02, 0x00, 0x00] ∧
    buildFrame 0x00 0xFF [0xFF] = [0xFF, 0xFF, 0x00, 0x03, 0xFF, 0xFF, 0xFE] ∧
    buildFrame 0x01 0x02 [0x24, 0x02] = [0xFF, 0xFF, 0x01, 0x04, 0x02, 0x24, 0x02, 0xD2] ∧
    buildFrame 0x02 0x01 [] = [0xFF, 0xFF, 0x02, 0x02, 0x01, 0xFA] ∧
    buildFrame 0xFE 0x83 [0x1E, 0x04, 0x00, 0x10, 0x00, 0x50, 0x01] =
      [0xFF, 0xFF, 0xFE, 0x09, 0x83, 0x1E, 0x04, 0x00, 0x10, 0x00, 0x50, 0x01, 0xF2] := by decide

theorem test_frame_longest :
    (buildFrame 0x01 0x03 (List.replicate 253 0x00)).length = 259 ∧
    (buildFrame 0x01 0x03 (List.replicate 253 0x00)).take 5 = [0xFF, 0xFF, 0x01, 0xFF, 0x03] ∧
    (buildFrame 0x01 0x03 (List.replicate 253 0x00)).getLast? = some 0xFC := by decide +kernel

/-! ### One step of each instruction -/

/-- E3. -/
theorem test_send_frame :
    nextIs (exec .send staged) (fun t => decide (t.txFrame = frameE3 ∧ t.phase = .txWait ∧ t.status = 0x01)) = true := by
  decide +kernel

/-- Section 2.4, CMD_ID = FE. -/
theorem test_send_badId :
    nextIs (exec .send { staged with cmdId := 0xFE }) (fun t =>
      decide (t.hostReply = .refusal (.sendBadId 0xFE) ∧ t.refused = true ∧ t.phase = .idle ∧ t.txFrame = [])) = true := by
  decide +kernel

/-- E4; CMD_ID 01 is not read. -/
theorem test_broadcast_frame :
    nextIs (exec .broadcast { staged with
        cmdInstr := 0x03, txParam := (State.reset.txParam.set 0 (some 0x03)).set 1 (some 0x01) })
      (fun t => decide (t.txFrame = frameE4 ∧ t.kind = .bcast ∧ t.phase = .txWait)) = true := by decide +kernel

/-- Section 2.4, CMD_ID = FE. -/
theorem test_broadcast_ignoresCmdId :
    nextIs (exec .broadcast { State.reset with cmdId := 0xFE }) (fun t =>
      decide (t.txFrame = [0xFF, 0xFF, 0xFE, 0x02, 0x00, 0xFF] ∧ t.refused = false)) = true := by decide +kernel

/-- E3: the write completed, RxRecv(4) is asked for (R75). -/
theorem test_pktInstruction_written :
    nextIs (exec (.pktInstruction 0x01 0x04 [0x02, 0x2B, 0x01, 0xCC]) sending) (fun t =>
      decide (t.phase = .hdrWait ∧ t.request = some (.rxRecv 4) ∧ t.result = .none)) = true := by decide +kernel

/-- R40: the transport writes the frame it was given. -/
theorem test_pktInstruction_foreign :
    faultIs (exec (.pktInstruction 0x02 0x02 [0x01, 0xFA]) sending) .foreignFrame = true := by decide +kernel

/-- E4: no receive, RESULT OK, STATUS 0x02 (R88). -/
theorem test_pktBroadcast_finishes :
    nextIs (exec (.pktBroadcast 0x04 [0x03, 0x03, 0x01, 0xF6]) broadcasting) (fun t =>
      decide (t.phase = .idle ∧ t.request = none ∧ t.status = 0x02)) = true := by decide +kernel

theorem test_pktBroadcast_unsolicited :
    faultIs (exec (.pktBroadcast 0x02 [0x03, 0xFC]) State.reset) .unsolicitedAnswer = true := by decide +kernel

/-- E3: the reply 01, 00, [20], STATUS 0x0A (R81). -/
theorem test_pktStatus_ok :
    nextIs (exec (.pktStatus 0x01 0x03 [0x00, 0x20, 0xDB]) receiving) (fun t =>
      decide (t.status = 0x0A ∧ t.rspId = 0x01 ∧ t.rspError = 0x00 ∧ t.rspNparams = 0x01 ∧ t.rxParam[0] = 0x20)) = true := by
  decide +kernel

/-- E7: STATUS 0x04, the results not stored (R80). -/
theorem test_pktStatus_badChecksum :
    nextIs (exec (.pktStatus 0x01 0x03 [0x00, 0x20, 0xDA]) receiving) (fun t =>
      decide (t.status = 0x04 ∧ t.rspValid = false ∧ t.rxParam[0] = 0x00)) = true := by decide +kernel

/-- Index 0x1FC is TX_PARAM[252], the last entry (R30). -/
theorem test_hostWr_lastTxParam :
    nextIs (exec (.hostWr 0x1FC 0x5A) State.reset) (fun t =>
      decide (t.txParam[252] = some 0x5A ∧ t.txParam[251] = none ∧ t.hostReply = .done ∧ t.refused = false)) = true := by
  decide +kernel

/-- Section 2.4: BUSY, WR CMD_ID, 07. -/
theorem test_hostWr_whileBusy :
    nextIs (exec (.hostWr 0x002 0x07) sending) (fun t =>
      decide (t.cmdId = 0x07 ∧ t.txFrame = frameE3 ∧ t.phase = .txWait ∧ t.refused = false)) = true := by decide +kernel

/-- Section 2.4: RD TX_PARAM[0] after reset faults. -/
theorem test_hostRd_unwritten :
    nextIs (exec (.hostRd 0x100) State.reset) (fun t =>
      decide (t.hostReply = .noValue (.unwrittenTxParam 0) ∧ t.faulted = true ∧ t.refused = false)) = true := by
  decide +kernel

/-- Section 2.4: after an OK SEND with one parameter, RX_PARAM[0] reads 20 and RX_PARAM[1] reads 00. -/
theorem test_hostRd_gated :
    nextIs (exec (.hostRd 0x200) replied) (fun t => decide (t.hostReply = .value 0x20)) = true ∧
    nextIs (exec (.hostRd 0x201) { replied with rxParam := replied.rxParam.set 1 0x77 }) (fun t =>
      decide (t.hostReply = .value 0x00)) = true := by decide +kernel

/-! ### Response parsing and reset, sections 2.3 and 2.5 -/

theorem test_header_answers :
    nextIs (step (moves awaiting [.answer (.data [])])) (fun t => decide (t.status = 0x04)) = true ∧
    nextIs (step (moves awaiting [.answer (.data [0xFF, 0xFF, 0x01])])) (fun t => decide (t.status = 0x04)) = true ∧
    nextIs (step (moves awaiting [.answer (.data [0xFE, 0xFF, 0x01, 0x00])])) (fun t => decide (t.status = 0x04)) = true ∧
    nextIs (step (moves awaiting [.answer (.data [0xFF, 0x00, 0x01, 0x02])])) (fun t => decide (t.status = 0x04)) = true ∧
    nextIs (step (moves awaiting [.answer .fail])) (fun t => decide (t.status = 0x06)) = true ∧
    nextIs (step (moves awaiting [])) (fun t => decide (t.status = 0x01 ∧ t.phase = .hdrWait)) = true := by decide +kernel

theorem test_body_answers :
    nextIs (step (moves { receiving with latId := 0x05, latLen := 0x02 } [.answer (.data [0x24, 0xD4])]))
      (fun t => decide (t.status = 0x0A ∧ t.rspId = 0x05 ∧ t.rspError = 0x24 ∧ t.rspNparams = 0x00)) = true ∧
    nextIs (step (moves receiving [.answer (.data [0x00, 0x20])])) (fun t => decide (t.status = 0x04)) = true ∧
    nextIs (step (moves { receiving with latLen := 0x00 } [.answer (.data [])])) (fun t => decide (t.status = 0x04)) = true ∧
    nextIs (step (moves { receiving with latLen := 0x01 } [.answer (.data [0x00])])) (fun t => decide (t.status = 0x04)) = true ∧
    nextIs (step (moves receiving [.answer .fail])) (fun t => decide (t.status = 0x06)) = true := by decide +kernel

theorem test_body_longest :
    nextIs (step (moves { receiving with latLen := 0xFF } [.answer (.data (0x00 :: List.replicate 253 0x00 ++ [0xFF]))]))
      (fun t => decide (t.status = 0x0A ∧ t.rspNparams = 0xFD)) = true := by decide +kernel

theorem test_reset_aborts :
    nextIs (step (moves awaiting [.reset, .lateAnswer (.data [0xFF, 0xFF, 0x01, 0x03])])) (fun t =>
      decide (t.status = 0x00 ∧ t.request = none ∧ t.cmdId = 0x00 ∧ t.txParam[0] = none)) = true := by decide +kernel

/-! ### Witnesses: for every obligation with hypotheses, operands that meet them, at the ends of their ranges -/

theorem staged_inv : staged.Inv := by
  constructor <;> decide +kernel

theorem sending_inv : sending.Inv := by
  constructor <;> decide +kernel

theorem receiving_inv : receiving.Inv := by
  constructor <;> decide +kernel

theorem broadcasting_inv : broadcasting.Inv := by
  constructor <;> decide +kernel

theorem replied_inv : replied.Inv := by
  constructor <;> decide +kernel

theorem inv_moves {s : State} (h : s.Inv) (l : List Input) : (moves s l).Inv :=
  ⟨h.frame, h.receiving, h.busy, h.valid, h.count⟩

/-- The indices at the ends of the ranges that read 0x00. -/
theorem witness_ResetStateIsTheTable :
    (0x005 ≤ (0x005 : HostIndex).toNat ∧ (0x005 : HostIndex).toNat ≤ 0x007) ∧
    (0x005 ≤ (0x007 : HostIndex).toNat ∧ (0x007 : HostIndex).toNat ≤ 0x007) ∧
    (0x200 ≤ (0x200 : HostIndex).toNat ∧ (0x200 : HostIndex).toNat ≤ 0x2FC) ∧
    (0x200 ≤ (0x2FC : HostIndex).toNat ∧ (0x2FC : HostIndex).toNat ≤ 0x2FC) := by decide

/-- With `witness_ResetStateIsTheTable` for the indices. -/
theorem witness_ResetEventGivesTheTable : (moves { replied with refused := true } [.reset]).inputs = .reset :: [] := rfl

theorem witness_ResetEventWritesNothingElse :
    (moves receiving [.reset]).inputs = .reset :: [] ∧
      ∃ t, step (moves receiving [.reset]) = .next t ∧ decide (t.latId = 0x01) = true :=
  ⟨rfl, next_of_nextIs (by decide +kernel)⟩

/-- Both clauses; in the second a late answer in IDLE, and one while a new exchange waits. -/
theorem witness_ResetAbortsAndLateAnswerIsNotDelivered :
    ((moves awaiting [.reset, .lateAnswer .fail]).phase ≠ .idle ∧
      (moves awaiting [.reset, .lateAnswer .fail]).inputs = .reset :: .lateAnswer .fail :: []) ∧
    (moves staged [.lateAnswer .ok]).inputs = .lateAnswer .ok :: [] ∧
    (moves receiving [.lateAnswer (.data [0x00, 0x20, 0xDB])]).inputs =
      .lateAnswer (.data [0x00, 0x20, 0xDB]) :: [] := by decide +kernel

/-- Every clause: the three single registers, both ends of TX_PARAM, and an index outside all of them. -/
theorem witness_HostWriteChangesOneRegister :
    (0x001 : HostIndex) ≠ 0x000 ∧ (0x002 : HostIndex) ≠ 0x000 ∧ (0x003 : HostIndex) ≠ 0x000 ∧
    (0x004 : HostIndex) ≠ 0x000 ∧ (0x3FF : HostIndex) ≠ 0x000 ∧
    (0x002 ≤ (0x002 : HostIndex).toNat ∧ (0x002 : HostIndex).toNat ≤ 0x004) ∧
    (0x002 ≤ (0x004 : HostIndex).toNat ∧ (0x004 : HostIndex).toNat ≤ 0x004) ∧
    (0x100 ≤ (0x100 : HostIndex).toNat ∧ (0x100 : HostIndex).toNat ≤ 0x1FC) ∧
    (0x100 ≤ (0x1FC : HostIndex).toNat ∧ (0x1FC : HostIndex).toNat ≤ 0x1FC) ∧
    (0x1FC : HostIndex).toNat = 0x100 + (252 : Fin 253).val := by decide

/-- First and last entry, written and unwritten. -/
theorem witness_StagingReadsReturnTheByte :
    (0x100 : HostIndex).toNat = 0x100 + (0 : Fin 253).val ∧ (0x1FC : HostIndex).toNat = 0x100 + (252 : Fin 253).val ∧
    staged.txParam[(0 : Fin 253)] = some 0x2B ∧ staged.txParam[(252 : Fin 253)] = none ∧
    full.txParam[(252 : Fin 253)] = some 0x00 ∧ State.reset.txParam[(0 : Fin 253)] = none := by decide +kernel

/-- First and last entry, valid inside the count, valid beyond it, not valid. -/
theorem witness_ResultReadsAreGated :
    (0x200 : HostIndex).toNat = 0x200 + (0 : Fin 253).val ∧ (0x2FC : HostIndex).toNat = 0x200 + (252 : Fin 253).val ∧
    (replied.rspValid = true ∧ (0 : Fin 253).val < replied.rspNparams.toNat) ∧
    ¬ (replied.rspValid = true ∧ (252 : Fin 253).val < replied.rspNparams.toNat) ∧
    receiving.rspValid = false := by decide +kernel

/-- Both ends of every range of the three clauses. -/
theorem witness_UnsupportedAccessesAreRefused :
    (0x008 ≤ (0x008 : HostIndex).toNat ∧ (0x008 : HostIndex).toNat ≤ 0x0FF) ∧
    (0x008 ≤ (0x0FF : HostIndex).toNat ∧ (0x0FF : HostIndex).toNat ≤ 0x0FF) ∧
    (0x1FD ≤ (0x1FD : HostIndex).toNat ∧ (0x1FD : HostIndex).toNat ≤ 0x1FF) ∧
    (0x1FD ≤ (0x1FF : HostIndex).toNat ∧ (0x1FF : HostIndex).toNat ≤ 0x1FF) ∧
    0x2FD ≤ (0x2FD : HostIndex).toNat ∧ 0x2FD ≤ (0x3FF : HostIndex).toNat ∧
    (0x005 ≤ (0x005 : HostIndex).toNat ∧ (0x005 : HostIndex).toNat ≤ 0x007) ∧
    (0x005 ≤ (0x007 : HostIndex).toNat ∧ (0x007 : HostIndex).toNat ≤ 0x007) ∧
    (0x200 ≤ (0x200 : HostIndex).toNat ∧ (0x200 : HostIndex).toNat ≤ 0x2FC) ∧
    (0x200 ≤ (0x2FC : HostIndex).toNat ∧ (0x2FC : HostIndex).toNat ≤ 0x2FC) := by decide

theorem witness_CtrlWriteIssuesTheCommand :
    sending.phase ≠ .idle ∧ awaiting.phase ≠ .idle ∧ receiving.phase ≠ .idle ∧ staged.phase = .idle ∧
    ((0x00 : Byte) ≠ 0x01 ∧ (0x00 : Byte) ≠ 0x02) ∧ ((0x03 : Byte) ≠ 0x01 ∧ (0x03 : Byte) ≠ 0x02) ∧
    ((0xFF : Byte) ≠ 0x01 ∧ (0xFF : Byte) ≠ 0x02) := by decide

theorem witness_MalformedHostWordIsRefused :
    (moves staged [.hostOp 0x20001]).inputs = .hostOp 0x20001 :: [] ∧
    (0x20001 : HostWord).toNat < 2 ^ 18 ∧ (0x20001 : HostWord).toNat % 2 ^ 8 ≠ 0 ∧
    (0x3FFFF : HostWord).toNat < 2 ^ 18 ∧ (0x3FFFF : HostWord).toNat % 2 ^ 8 ≠ 0 := by decide +kernel

theorem witness_ChecksumIsTheAccumulator :
    ([0x80, 0x80] : List Byte) ≠ [] ∧
    (([0x80, 0x80] : List Byte).map BitVec.toNat).sum % 256 = (([0x00] : List Byte).map BitVec.toNat).sum % 256 := by decide

theorem witness_ChecksumIgnoresOrder :
    ([0x01, 0x04, 0x02, 0x2B, 0x01] : List Byte).Perm [0x2B, 0x01, 0x01, 0x04, 0x02] := by decide

/-- The four clauses with hypotheses: a payload byte, the checksum byte, +1 and -1, a permutation. -/
theorem witness_ValidationCatchesOneChangedByte :
    (checksumValid ([0x01, 0x03] ++ 0x00 :: [0x20]) 0xDB = true ∧ (0x00 : Byte) ≠ 0x01) ∧
    (checksumValid [0x01, 0x03, 0x00, 0x20] 0xDB = true ∧ (0xDB : Byte) ≠ 0xDA) ∧
    checksumValid ([0x01, 0x04] ++ 0x00 :: [0x20] ++ 0x21 :: []) 0xB9 = true ∧
    (([0x01, 0x04, 0x00, 0x20, 0x21] : List Byte).Perm [0x01, 0x04, 0x00, 0x21, 0x20] ∧
      checksumValid [0x01, 0x04, 0x00, 0x20, 0x21] 0xB9 = true) := by decide

/-- No parameter and the most there can be. -/
theorem witness_FrameHasTheTablesLayout :
    ([] : List Byte).length ≤ 253 ∧ (List.replicate 253 (0x00 : Byte)).length ≤ 253 := by decide +kernel

/-- With `witness_FrameHasTheTablesLayout`; the ids at the ends of the three clauses. -/
theorem witness_EmittedFrameIsAnOutgoingPacket :
    (0x00 : Byte).toNat ≤ 0xFD ∧ (0xFD : Byte).toNat ≤ 0xFD ∧ (0xFE : Byte) = 0xFE ∧ (0xFF : Byte) = 0xFF := by decide

theorem witness_SendIsAccepted :
    staged.phase = .idle ∧ staged.cmdId.toNat ≤ 0xFD ∧ staged.cmdNparams.toNat = ([0x2B, 0x01] : List Byte).length ∧
    ([0x2B, 0x01] : List Byte).length ≤ 253 ∧
    ∀ i, i < ([0x2B, 0x01] : List Byte).length → staged.txParam[i]? = some ([0x2B, 0x01] : List Byte)[i]? := by
  decide +kernel

/-- 253 parameters and the highest id. -/
theorem witness_SendIsAccepted_full :
    full.phase = .idle ∧ full.cmdId.toNat ≤ 0xFD ∧ full.cmdNparams.toNat = (List.replicate 253 (0x00 : Byte)).length ∧
    (List.replicate 253 (0x00 : Byte)).length ≤ 253 ∧
    ∀ i, i < (List.replicate 253 (0x00 : Byte)).length →
      full.txParam[i]? = some (List.replicate 253 (0x00 : Byte))[i]? := by decide +kernel

/-- The three clauses, at their boundary values. -/
theorem witness_SendRefusalsInOrder :
    (State.reset.phase = .idle ∧ 0xFE ≤ ({ State.reset with cmdId := 0xFE } : State).cmdId.toNat ∧
      0xFE ≤ ({ State.reset with cmdId := 0xFF } : State).cmdId.toNat) ∧
    (({ full with cmdNparams := 0xFE } : State).phase = .idle ∧ ({ full with cmdNparams := 0xFE } : State).cmdId.toNat ≤ 0xFD ∧
      253 < ({ full with cmdNparams := 0xFE } : State).cmdNparams.toNat) ∧
    (({ staged with cmdNparams := 0x03 } : State).phase = .idle ∧
      ({ staged with cmdNparams := 0x03 } : State).cmdId.toNat ≤ 0xFD ∧
      ({ staged with cmdNparams := 0x03 } : State).cmdNparams.toNat ≤ 253 ∧
      (2 : Fin 253).val < ({ staged with cmdNparams := 0x03 } : State).cmdNparams.toNat ∧
      ({ staged with cmdNparams := 0x03 } : State).txParam[(2 : Fin 253)] = none ∧
      ∀ k : Fin 253, k < 2 → ({ staged with cmdNparams := 0x03 } : State).txParam[k] ≠ none) := by decide +kernel

theorem witness_BroadcastIsAccepted :
    ({ staged with cmdId := 0xFF } : State).phase = .idle ∧
    ({ staged with cmdId := 0xFF } : State).cmdNparams.toNat = ([0x2B, 0x01] : List Byte).length ∧
    ([0x2B, 0x01] : List Byte).length ≤ 253 ∧
    ∀ i, i < ([0x2B, 0x01] : List Byte).length →
      ({ staged with cmdId := 0xFF } : State).txParam[i]? = some ([0x2B, 0x01] : List Byte)[i]? := by decide +kernel

/-- Both clauses: a count over 253; the last entry, the only one unwritten. -/
theorem witness_BroadcastRefusalsInOrder :
    (({ full with cmdNparams := 0xFF } : State).phase = .idle ∧
      253 < ({ full with cmdNparams := 0xFF } : State).cmdNparams.toNat) ∧
    (({ full with txParam := full.txParam.set 252 none } : State).phase = .idle ∧
      ({ full with txParam := full.txParam.set 252 none } : State).cmdNparams.toNat ≤ 253 ∧
      (252 : Fin 253).val < ({ full with txParam := full.txParam.set 252 none } : State).cmdNparams.toNat ∧
      ({ full with txParam := full.txParam.set 252 none } : State).txParam[(252 : Fin 253)] = none ∧
      ∀ k : Fin 253, k < 252 → ({ full with txParam := full.txParam.set 252 none } : State).txParam[k] ≠ none) := by
  decide +kernel

theorem witness_PktInstructionCompletesTheWrite :
    sending.phase = .txWait ∧ sending.kind = .unicast ∧
    sending.txFrame = [0xFF, 0xFF, 0x01, 0x04] ++ [0x02, 0x2B, 0x01, 0xCC] := by decide +kernel

theorem witness_PktBroadcastFinishesOk :
    broadcasting.phase = .txWait ∧ broadcasting.kind = .bcast ∧
    broadcasting.txFrame = [0xFF, 0xFF, 0xFE, 0x04] ++ [0x03, 0x03, 0x01, 0xF6] := by decide +kernel

/-- The three clauses; in the second the packet differs from the frame in one byte. -/
theorem witness_ForeignFrameStops :
    staged.phase ≠ .txWait ∧ receiving.phase ≠ .txWait ∧
    (sending.phase = .txWait ∧ sending.txFrame ≠ [0xFF, 0xFF, 0x01, 0x04] ++ [0x02, 0x2B, 0x02, 0xCC]) ∧
    (broadcasting.phase = .txWait ∧ broadcasting.txFrame ≠ [0xFF, 0xFF, 0xFE, 0x04] ++ [0x03, 0x03, 0x02, 0xF6]) := by
  decide +kernel

theorem witness_UnicastWriteAnswer :
    sending.phase = .txWait ∧ sending.kind = .unicast ∧
    (moves sending [.answer .ok]).inputs = .answer .ok :: [] ∧
    (moves sending [.answer .fail]).inputs = .answer .fail :: [] := by decide +kernel

theorem witness_BroadcastWriteAnswer :
    broadcasting.phase = .txWait ∧ broadcasting.kind = .bcast ∧
    (moves broadcasting [.answer .ok]).inputs = .answer .ok :: [] ∧
    (moves broadcasting [.answer .fail]).inputs = .answer .fail :: [] := by decide +kernel

/-- Nothing at all, three bytes, a wrong first marker, a wrong second marker. -/
theorem witness_BadHeaderIsCommError :
    (moves awaiting [.answer (.data [])]).phase = .hdrWait ∧
    (moves awaiting [.answer (.data [])]).inputs = .answer (.data []) :: [] ∧
    (([] : List Byte).length ≤ 4 ∧ ([] : List Byte).length < 4) ∧
    (([0xFF, 0xFF, 0x01] : List Byte).length ≤ 4 ∧ ([0xFF, 0xFF, 0x01] : List Byte).length < 4) ∧
    (([0xFE, 0xFF, 0x01, 0x00] : List Byte).length ≤ 4 ∧ ([0xFE, 0xFF, 0x01, 0x00] : List Byte)[0]? ≠ some 0xFF) ∧
    (([0xFF, 0x00, 0x01, 0x02] : List Byte).length ≤ 4 ∧ ([0xFF, 0x00, 0x01, 0x02] : List Byte)[1]? ≠ some 0xFF) := by
  decide +kernel

/-- L = 0 and L = 255. -/
theorem witness_GoodHeaderIsLatched :
    (moves awaiting [.answer (.data [0xFF, 0xFF, 0x01, 0x00])]).phase = .hdrWait ∧
    (moves awaiting [.answer (.data [0xFF, 0xFF, 0x01, 0x00])]).inputs = .answer (.data [0xFF, 0xFF, 0x01, 0x00]) :: [] ∧
    (moves awaiting [.answer (.data [0xFF, 0xFF, 0xFF, 0xFF])]).inputs =
      .answer (.data [0xFF, 0xFF, 0xFF, 0xFF]) :: [] := by decide +kernel

/-- One byte short, L = 1 whole, L = 0 whole. -/
theorem witness_ShortOrImpossibleBodyIsCommError :
    (receiving.phase = .bodyWait ∧
      (moves receiving [.answer (.data [0x00, 0x20])]).inputs = .answer (.data [0x00, 0x20]) :: [] ∧
      ([0x00, 0x20] : List Byte).length ≤ receiving.latLen.toNat ∧
      ([0x00, 0x20] : List Byte).length < receiving.latLen.toNat) ∧
    (([0x00] : List Byte).length ≤ ({ receiving with latLen := 0x01 } : State).latLen.toNat ∧
      ({ receiving with latLen := 0x01 } : State).latLen.toNat < 2) ∧
    (([] : List Byte).length ≤ ({ receiving with latLen := 0x00 } : State).latLen.toNat ∧
      ({ receiving with latLen := 0x00 } : State).latLen.toNat < 2) := by decide +kernel

/-- E3 and E7; and the shortest whole body, L = 2. -/
theorem witness_WholeBodyIsValidatedAndStored :
    receiving.phase = .bodyWait ∧
    (moves receiving [.answer (.data [0x00, 0x20, 0xDB])]).inputs = .answer (.data ([0x00] ++ [0x20] ++ [0xDB])) :: [] ∧
    receiving.latLen.toNat = ([0x20] : List Byte).length + 2 ∧
    checksum ([receiving.latId, receiving.latLen, 0x00] ++ [0x20]) = 0xDB ∧
    checksum ([receiving.latId, receiving.latLen, 0x00] ++ [0x20]) ≠ 0xDA ∧
    ({ receiving with latLen := 0x02 } : State).latLen.toNat = ([] : List Byte).length + 2 ∧
    ({ receiving with latLen := 0xFF } : State).latLen.toNat = (List.replicate 253 (0x00 : Byte)).length + 2 := by
  decide +kernel

theorem witness_FailedReceiveIsTransportFault :
    (moves awaiting [.answer .fail]).phase = .hdrWait ∧ (moves receiving [.answer .fail]).phase = .bodyWait ∧
    (moves awaiting [.answer .fail]).inputs = .answer .fail :: [] ∧
    (moves receiving [.answer .fail]).inputs = .answer .fail :: [] := by decide +kernel

/-- As many bytes as asked for; one more; the wrong kind of answer; no request. -/
theorem witness_AnswersAreTheContracts :
    (moves receiving [.answer (.data [0x00, 0x20, 0xDB])]).inputs = .answer (.data [0x00, 0x20, 0xDB]) :: [] ∧
    (∃ r, receiving.request = some r ∧ Answer.allowed r (.data [0x00, 0x20, 0xDB]) = true) ∧
    (¬ ∃ r, receiving.request = some r ∧ Answer.allowed r (.data [0x00, 0x20, 0xDB, 0x00]) = true) ∧
    (¬ ∃ r, sending.request = some r ∧ Answer.allowed r (.data []) = true) ∧
    (¬ ∃ r, staged.request = some r ∧ Answer.allowed r .ok = true) := by
  refine ⟨rfl, ⟨.rxRecv 3, by decide +kernel⟩, ?_, ?_, ?_⟩
  · rintro ⟨r, h, ha⟩
    cases h
    revert ha
    decide
  · rintro ⟨r, h, ha⟩
    cases h
    revert ha
    decide
  · rintro ⟨r, h, _⟩
    cases h

/-- A legal packet, one with a wrong checksum, one with L = 1, one with L = 0. -/
theorem witness_PktStatusEndsTheSend :
    awaiting.phase = .hdrWait ∧
    (([0x00, 0x20, 0xDB] : List Byte).length = (0x03 : Byte).toNat ∧ statusLegal 0x01 0x03 [0x00, 0x20, 0xDB] = true) ∧
    (([0x00, 0x20, 0xDA] : List Byte).length = (0x03 : Byte).toNat ∧ statusLegal 0x01 0x03 [0x00, 0x20, 0xDA] = false) ∧
    (([0x00] : List Byte).length = (0x01 : Byte).toNat ∧ statusLegal 0x01 0x01 [0x00] = false) ∧
    (([] : List Byte).length = (0x00 : Byte).toNat ∧ statusLegal 0x01 0x00 [] = false) := by decide +kernel

/-- The premises of its three clauses. -/
theorem witness_PktStatusFrame :
    receiving.phase ≠ .hdrWait ∧ awaiting.phase ≠ .bodyWait ∧ staged.phase = .idle ∧ sending.phase = .txWait := by
  decide +kernel

theorem witness_InvariantIsKept :
    (moves receiving [.answer (.data [0x00, 0x20, 0xDB])]).Inv ∧
      ∃ t, step (moves receiving [.answer (.data [0x00, 0x20, 0xDB])]) = .next t ∧ decide (t.rspValid = true) = true :=
  ⟨inv_moves receiving_inv _, next_of_nextIs (by decide +kernel)⟩

/-- Both marks set, and a step that has a next state. -/
theorem witness_MarksAreNeverCleared :
    ({ moves staged [.command 0x01] with refused := true, faulted := true } : State).refused = true ∧
    ({ moves staged [.command 0x01] with refused := true, faulted := true } : State).faulted = true ∧
      ∃ t, step { moves staged [.command 0x01] with refused := true, faulted := true } = .next t ∧
        decide (t.phase = .txWait) = true :=
  ⟨rfl, rfl, next_of_nextIs (by decide +kernel)⟩

/-- One step that sets `refused`, one that sets `faulted`. -/
theorem witness_SettingAMarkChangesNothingElse :
    (State.Clean (moves sending [.command 0x01]) ∧
      ∃ t, step (moves sending [.command 0x01]) = .next t ∧ decide (¬ t.Clean) = true) ∧
    (State.Clean (moves staged [.hostOp 0x10200]) ∧
      ∃ t, step (moves staged [.hostOp 0x10200]) = .next t ∧ decide (¬ t.Clean) = true) :=
  ⟨⟨by decide +kernel, next_of_nextIs (by decide +kernel)⟩, ⟨by decide +kernel, next_of_nextIs (by decide +kernel)⟩⟩

/-- One step for each edge of the phase; from IDLE with the CTRL byte, and with the word of WR CTRL for either command. -/
theorem witness_RequestsComeInOrder :
    (∃ t, step (moves staged [.hostOp 0x40001]) = .next t ∧ decide (Phase.idle ≠ t.phase) = true) ∧
    (∃ t, step (moves staged [.hostOp 0x40002]) = .next t ∧ decide (Phase.idle ≠ t.phase) = true) ∧
    (∃ t, step (moves staged [.command 0x01]) = .next t ∧ decide (Phase.idle ≠ t.phase) = true) ∧
    (∃ t, step (moves sending [.answer .ok]) = .next t ∧ decide (Phase.txWait ≠ t.phase) = true) ∧
    (∃ t, step (moves awaiting [.answer (.data [0xFF, 0xFF, 0x01, 0x03])]) = .next t ∧
      decide (Phase.hdrWait ≠ t.phase) = true) ∧
    (∃ t, step (moves receiving [.answer (.data [0x00, 0x20, 0xDB])]) = .next t ∧
      decide (Phase.bodyWait ≠ t.phase) = true) ∧
    (∃ t, step (moves receiving [.reset]) = .next t ∧ decide (Phase.bodyWait ≠ t.phase) = true) :=
  ⟨next_of_nextIs (by decide +kernel), next_of_nextIs (by decide +kernel), next_of_nextIs (by decide +kernel),
    next_of_nextIs (by decide +kernel), next_of_nextIs (by decide +kernel), next_of_nextIs (by decide +kernel),
    next_of_nextIs (by decide +kernel)⟩

theorem witness_ExchangeWaitsForItsAnswer :
    (∃ t, step (moves sending [.hostOp 0x40207]) = .next t ∧ decide (t.cmdId = 0x07) = true) ∧
    (moves sending [.hostOp 0x40207]).phase ≠ .idle ∧
    (∀ a rest, (moves sending [.hostOp 0x40207]).inputs ≠ .answer a :: rest) ∧
    (∀ rest, (moves sending [.hostOp 0x40207]).inputs ≠ .reset :: rest) ∧
    sending.inputs = [] :=
  ⟨next_of_nextIs (by decide +kernel), by decide, nofun, nofun, rfl⟩

theorem witness_FrameIsFrozenWhileBusy :
    (∃ t, step (moves sending [.answer .ok]) = .next t ∧ decide (t.phase = .hdrWait) = true) ∧
    (moves sending [.answer .ok]).phase ≠ .idle ∧ (∀ rest, (moves sending [.answer .ok]).inputs ≠ .reset :: rest) :=
  ⟨next_of_nextIs (by decide +kernel), by decide, nofun⟩

/-- A step of each side of the disjunction. -/
theorem witness_ResultsChangeOnlyOnSuccess :
    (∃ t, step (moves replied [.command 0x01]) = .next t ∧ decide (t.rspValid = false) = true) ∧
    (∃ t, step (moves receiving [.answer (.data [0x00, 0x20, 0xDB])]) = .next t ∧ decide (t.rspError = 0x00) = true) :=
  ⟨next_of_nextIs (by decide +kernel), next_of_nextIs (by decide +kernel)⟩

/-- The answer ok, the answer fail, reset, and a host access while the broadcast runs. -/
theorem witness_BroadcastNeverReceives :
    (∀ l, (moves broadcasting l).Inv) ∧ broadcasting.phase ≠ .idle ∧ broadcasting.kind = .bcast ∧
    (∃ t, step (moves broadcasting [.answer .ok]) = .next t ∧ decide (t.result = .ok) = true) ∧
    (∃ t, step (moves broadcasting [.answer .fail]) = .next t ∧ decide (t.result = .transportFault) = true) ∧
    (∃ t, step (moves broadcasting [.reset]) = .next t ∧ decide (t.result = .none) = true) ∧
    (∃ t, step (moves broadcasting [.hostOp 0x40207]) = .next t ∧ decide (t.phase = .txWait) = true) :=
  ⟨fun l => inv_moves broadcasting_inv l, by decide, rfl, next_of_nextIs (by decide +kernel),
    next_of_nextIs (by decide +kernel), next_of_nextIs (by decide +kernel), next_of_nextIs (by decide +kernel)⟩

/-- Both clauses: an answer that steps, and one that stops. -/
theorem witness_StagingDoesNotReachTheExchange :
    (moves receiving [.answer (.data [0x00, 0x20, 0xDB])]).inputs = .answer (.data [0x00, 0x20, 0xDB]) :: [] ∧
    (∃ t, step (moves receiving [.answer (.data [0x00, 0x20, 0xDB])]) = .next t ∧ decide (t.result = .ok) = true) ∧
    (moves receiving [.answer .ok]).inputs = .answer .ok :: [] ∧
    step (moves receiving [.answer .ok]) = .fault .wrongAnswer :=
  ⟨rfl, next_of_nextIs (by decide +kernel), rfl, fault_of_faultIs (by decide +kernel)⟩

/-- E3; with `witness_SendIsAccepted` for the operands of `staged`. The rule's function gives E3's reply. -/
theorem witness_SendExchangeIsTheRulesFunction :
    answersAllowed .ok (.data [0xFF, 0xFF, 0x01, 0x03]) (.data [0x00, 0x20, 0xDB]) ∧
    (moves staged [.command 0x01, .answer .ok, .answer (.data [0xFF, 0xFF, 0x01, 0x03]),
        .answer (.data [0x00, 0x20, 0xDB])]).inputs =
      .command 0x01 :: ([Input.answer .ok, .answer (.data [0xFF, 0xFF, 0x01, 0x03]),
        .answer (.data [0x00, 0x20, 0xDB])].take
          (sendRequests .ok (.data [0xFF, 0xFF, 0x01, 0x03])) ++ []) ∧
    sendResult .ok (.data [0xFF, 0xFF, 0x01, 0x03]) (.data [0x00, 0x20, 0xDB]) = (.ok, some (0x01, 0x00, [0x20])) :=
  ⟨⟨rfl, rfl, by rintro bs h; cases h; decide⟩, by decide +kernel, by decide⟩

/-- A write that fails, and a bad header: one request, and two (R83). -/
theorem witness_SendExchangeIsTheRulesFunction_failing :
    answersAllowed .fail .fail .fail ∧ sendRequests .fail .fail = 1 ∧
    answersAllowed .ok (.data [0xFF, 0xFF, 0x01]) .fail ∧ sendRequests .ok (.data [0xFF, 0xFF, 0x01]) = 2 ∧
    (moves staged [.command 0x01, .answer .fail]).inputs =
      .command 0x01 :: ([Input.answer .fail, .answer .fail, .answer .fail].take (sendRequests .fail .fail) ++ []) :=
  ⟨⟨rfl, rfl, nofun⟩, rfl, ⟨rfl, by decide, fun _ _ => rfl⟩, by decide, rfl⟩

/-- With `witness_BroadcastIsAccepted` for the operands. -/
theorem witness_BroadcastExchangeIsTheRulesFunction :
    ((Answer.ok = .ok ∨ Answer.ok = .fail) ∧ (Answer.fail = .ok ∨ Answer.fail = .fail)) ∧
    (moves { staged with cmdId := 0xFF } [.command 0x02, .answer .fail]).inputs =
      .command 0x02 :: .answer .fail :: [] := by decide +kernel

/-- E3, and no parameters with the highest id. -/
theorem witness_SendWordsStartTheExchange :
    ((moves replied ((sendWords 0x01 0x02 [0x2B, 0x01]).map Input.hostOp)).phase = .idle ∧
      (0x01 : Byte).toNat ≤ 0xFD ∧ ([0x2B, 0x01] : List Byte).length ≤ 253 ∧
      (moves replied ((sendWords 0x01 0x02 [0x2B, 0x01]).map Input.hostOp)).inputs =
        (sendWords 0x01 0x02 [0x2B, 0x01]).map Input.hostOp ++ []) ∧
    ((0xFD : Byte).toNat ≤ 0xFD ∧ ([] : List Byte).length ≤ 253 ∧
      (moves replied ((sendWords 0xFD 0x00 []).map Input.hostOp)).inputs =
        (sendWords 0xFD 0x00 []).map Input.hostOp ++ []) := by decide +kernel

theorem witness_BroadcastWordsStartTheExchange :
    (moves replied ((broadcastWords 0x03 [0x03, 0x01]).map Input.hostOp)).phase = .idle ∧
    ([0x03, 0x01] : List Byte).length ≤ 253 ∧
    (moves replied ((broadcastWords 0x03 [0x03, 0x01]).map Input.hostOp)).inputs =
      (broadcastWords 0x03 [0x03, 0x01]).map Input.hostOp ++ [] := by decide +kernel

/-- `test_wf_good` has a well-formed term of every row; this one is the longest there is. -/
theorem witness_DecodeOfEncodeIsTheInstruction :
    (Instr.pktInstruction 0xFD 0xFF (outgoingBody 0xFD 0x03 (List.replicate 253 0x00))).wellFormed = true := by
  decide +kernel

/-- The decode tests above have one code of every row; two of them. -/
theorem witness_EncodeOfDecodeIsTheCode :
    decode (.hostOp 0x401FF) = .ok (.hostWr 0x001 0xFF) ∧
    decode (.incoming [0xFF, 0xFF, 0x01, 0x00]) = .ok (.pktStatus 0x01 0x00 []) := by decide

/-- Every clause on both sides: CTRL bytes, HOSTOP words, no bytes and three, either marker wrong, a byte short and a byte
over, and the ids at the ends of the last clause. -/
theorem witness_ReservedEncodingsAreRejected :
    ((0x00 : Byte) ≠ 0x01 ∧ (0x00 : Byte) ≠ 0x02) ∧ ((0xFF : Byte) ≠ 0x01 ∧ (0xFF : Byte) ≠ 0x02) ∧
    ((0x3FF01 : HostWord).toNat < 2 ^ 18 ∧ (0x3FF01 : HostWord).toNat % 2 ^ 8 ≠ 0) ∧
    (2 ^ 18 ≤ (0x40000 : HostWord).toNat ∧ (0x3FF00 : HostWord).toNat % 2 ^ 8 = 0) ∧
    (([] : List Byte).length < 4 ∧ ([0xFF, 0xFF, 0x01] : List Byte).length < 4) ∧
    ((0xFE : Byte) ≠ 0xFF ∧ (0x00 : Byte) ≠ 0xFF) ∧
    (([0x01] : List Byte).length ≠ (0x02 : Byte).toNat ∧ ([0x01, 0xFB, 0x00] : List Byte).length ≠ (0x02 : Byte).toNat) ∧
    (([] : List Byte).length = (0x00 : Byte).toNat ∧ ([0x01, 0xFB] : List Byte).length = (0x02 : Byte).toNat) ∧
    ((0xFD : Byte) ≠ 0xFF ∧ (0xFD : Byte) ≠ 0xFE ∧ (0xFE : Byte) ≠ 0xFF) := by decide

/-- A host word, the frame whose write completes, the packet a body answer makes whole. -/
theorem witness_StepRunsTheDecodedInstruction :
    ((moves staged [.hostOp 0x40207]).inputs = .hostOp 0x40207 :: [] ∧
      fetch (.hostOp 0x40207) { moves staged [.hostOp 0x40207] with inputs := [] } = some (.hostOp 0x40207) ∧
      decode (.hostOp 0x40207) = .ok (.hostWr 0x002 0x07)) ∧
    (fetch (.answer .ok) { moves sending [.answer .ok] with inputs := [] } = some (.outgoing frameE3) ∧
      decode (.outgoing frameE3) = .ok (.pktInstruction 0x01 0x04 [0x02, 0x2B, 0x01, 0xCC])) ∧
    (fetch (.answer (.data [0x00, 0x20, 0xDB])) { moves receiving [.answer (.data [0x00, 0x20, 0xDB])] with inputs := [] } =
        some (.incoming [0xFF, 0xFF, 0x01, 0x03, 0x00, 0x20, 0xDB]) ∧
      decode (.incoming [0xFF, 0xFF, 0x01, 0x03, 0x00, 0x20, 0xDB]) = .ok (.pktStatus 0x01 0x03 [0x00, 0x20, 0xDB])) := by
  decide +kernel

end Sys2Proof.Tests
end

section
/-! SUPPORT. What a busy state keeps on a move that is neither an answer nor a reset (R8, R119), and the step on a move
whose code decodes. -/

namespace Sys2Proof.Machine

/-- `t` has the exchange of `s`: its phase, owner, frame and latched header, and the outcome as it stood. -/
structure KeepsExchange (s t : State) : Prop where
  phase : t.phase = s.phase
  kind : t.kind = s.kind
  txFrame : t.txFrame = s.txFrame
  latId : t.latId = s.latId
  latLen : t.latLen = s.latLen
  result : t.result = s.result
  rspValid : t.rspValid = s.rspValid

theorem KeepsExchange.refl (s : State) : KeepsExchange s s :=
  ⟨rfl, rfl, rfl, rfl, rfl, rfl, rfl⟩

theorem KeepsExchange.trans {s t u : State} (h : KeepsExchange s t) (h' : KeepsExchange t u) : KeepsExchange s u where
  phase := h'.phase.trans h.phase
  kind := h'.kind.trans h.kind
  txFrame := h'.txFrame.trans h.txFrame
  latId := h'.latId.trans h.latId
  latLen := h'.latLen.trans h.latLen
  result := h'.result.trans h.result
  rspValid := h'.rspValid.trans h.rspValid

theorem setInputs_keepsExchange (rest : List Input) (s : State) : KeepsExchange s (setInputs rest s) :=
  ⟨rfl, rfl, rfl, rfl, rfl, rfl, rfl⟩

theorem respond_keepsExchange (r : HostReply) (s : State) : KeepsExchange s (respond r s) :=
  ⟨rfl, rfl, rfl, rfl, rfl, rfl, rfl⟩

theorem refuse_keepsExchange (r : RefuseReason) (s : State) : KeepsExchange s (refuse r s) :=
  respond_keepsExchange (.refusal r) s

/-- R48: while an exchange runs, a CTRL write is refused, so it starts no other. -/
theorem command_keepsExchange {s : State} (hb : s.phase ≠ .idle) (v : Byte) : KeepsExchange s (command v s) := by
  obtain ⟨r, hr⟩ | ⟨hidle, -⟩ := command_cases v s
  · rw [hr]
    exact refuse_keepsExchange r s
  · exact absurd hidle hb

/-- R31: a host write reaches the staging registers only, and CTRL is refused while an exchange runs. -/
theorem hostWrite_keepsExchange {s : State} (hb : s.phase ≠ .idle) (j : HostIndex) (v : Byte) :
    KeepsExchange s (hostWrite j v s) := by
  obtain ⟨-, h⟩ | ⟨-, h⟩ | ⟨-, h⟩ | ⟨-, h⟩ | ⟨i, -, h⟩ | h := hostWrite_cases j v s <;> rw [h]
  · exact command_keepsExchange hb v
  · exact ⟨rfl, rfl, rfl, rfl, rfl, rfl, rfl⟩
  · exact ⟨rfl, rfl, rfl, rfl, rfl, rfl, rfl⟩
  · exact ⟨rfl, rfl, rfl, rfl, rfl, rfl, rfl⟩
  · exact ⟨rfl, rfl, rfl, rfl, rfl, rfl, rfl⟩
  · exact refuse_keepsExchange (.badAccess j) s

/-- R8, R119: only an answer of the transport or a reset moves a running exchange. -/
theorem step_keepsExchange {s t : State} (h : step s = .next t) (hb : s.phase ≠ .idle)
    (hans : ∀ a rest, s.inputs ≠ .answer a :: rest) (hreset : ∀ rest, s.inputs ≠ .reset :: rest) :
    KeepsExchange s t := by
  obtain ⟨-, rfl⟩ | ⟨m, rest, hi, hmove⟩ := step_cases h
  · exact .refl t
  · refine (setInputs_keepsExchange rest s).trans ?_
    have hb' : (setInputs rest s).phase ≠ .idle := hb
    obtain ⟨v, -, rfl⟩ | ⟨w, -, hword⟩ | ⟨a, rfl, -⟩ | ⟨a, -, rfl⟩ | ⟨rfl, -⟩ := hmove
    · exact command_keepsExchange hb' v
    · obtain ⟨j, v, -, rfl⟩ | ⟨j, -, rfl⟩ | rfl := hword
      · exact hostWrite_keepsExchange hb' j v
      · exact respond_keepsExchange _ _
      · exact refuse_keepsExchange _ _
    · exact absurd hi (hans a rest)
    · exact .refl _
    · exact absurd hi (hreset rest)

/-- Settles O42: `step_keepsExchange` for the busy state, `step_nil` where there is no move. -/
theorem exchangeWaitsForItsAnswer : Obligations.ExchangeWaitsForItsAnswer := by
  refine ⟨fun s t h hb hans hreset => ?_, fun s => step_nil⟩
  obtain ⟨hphase, hkind, hframe, hid, hlen, hresult, hvalid⟩ := step_keepsExchange h hb hans hreset
  exact ⟨hphase, hkind, hframe, hid, hlen, hresult, hvalid⟩

theorem fetchInstr_of_decode {m : Input} {s : State} {c : Code} {i : Instr} (hc : fetch m s = some c)
    (hd : decode c = .ok i) : fetchInstr m s = some i := by
  simp [fetchInstr, hc, hd, Except.toOption]

theorem step_of_fetchInstr {s : State} {m : Input} {rest : List Input} {i : Instr} (h : s.inputs = m :: rest)
    (hf : fetchInstr m (setInputs rest s) = some i) : step s = exec i (setInputs rest s) := by
  simp only [step, h, hf]

/-- Settles O55: the code's instruction is the one the step fetches, and the step executes what it fetches. -/
theorem stepRunsTheDecodedInstruction : Obligations.StepRunsTheDecodedInstruction :=
  fun _ _ _ _ _ hi hc hd => step_of_fetchInstr hi (fetchInstr_of_decode hc hd)

end Sys2Proof.Machine
end

section
/-! SUPPORT. Reset and STATUS: the states and the reads that R26, R28 and R19 fix. -/

namespace Sys2Proof.Machine

/-- An idle state meets the invariant as soon as its outcome and its reply count do. -/
theorem State.Inv.of_idle {s : State} (hp : s.phase = .idle) (hv : s.rspValid = true → s.result = .ok)
    (hc : s.rspNparams.toNat ≤ Config.maxParams) : s.Inv where
  frame hb := absurd hp hb
  receiving := by simp [hp]
  busy hb := absurd hp hb
  valid := hv
  count := hc

/-- Settles O2: the reset state is idle, with RSP_VALID 0 and the reply count 0x00 of log entry 6. -/
theorem invariantHoldsAtReset : Obligations.InvariantHoldsAtReset :=
  .of_idle rfl nofun (Nat.zero_le _)

/-- Settles O4, by `step_reset`. -/
theorem resetEventWritesNothingElse : Obligations.ResetEventWritesNothingElse := by
  intro s t rest hi h
  cases (step_reset hi).symm.trans h
  exact ⟨rfl, rfl, rfl, rfl, rfl, rfl, rfl, rfl, rfl⟩

theorem exec_hostRd (j : HostIndex) (s : State) : exec (.hostRd j) s = .next (respond (hostRead j s) s) := rfl

theorem respond_value (v : Byte) (s : State) : respond (.value v) s = { s with hostReply := .value v } := by
  simp [respond]

theorem refuse_eq (r : RefuseReason) (s : State) :
    refuse r s = { s with hostReply := .refusal r, refused := true } := by
  simp [refuse, respond]

theorem exec_hostRd_status (s : State) :
    exec (.hostRd 0x001) s = .next { s with hostReply := .value s.status } := by
  rw [exec_hostRd, ← respond_value]
  rfl

/-- R34: STATUS is read-only. -/
theorem exec_hostWr_status (v : Byte) (s : State) :
    exec (.hostWr 0x001 v) s = .next { s with hostReply := .refusal (.badAccess 0x001), refused := true } := by
  rw [← refuse_eq]
  rfl

theorem status_busyBit (s : State) : s.status.getLsbD 0 = s.busy := by
  simp only [State.status, BitVec.getLsbD_append]
  simp

theorem status_resultBits (s : State) : s.status.extractLsb' 1 2 = s.result.code := by
  ext i hi
  simp only [State.status, BitVec.getElem_extractLsb', BitVec.getLsbD_append]
  simp [hi]

theorem status_validBit (s : State) : s.status.getLsbD 3 = s.rspValid := by
  simp only [State.status, BitVec.getLsbD_append]
  simp

theorem status_highBits (s : State) : s.status.extractLsb' 4 4 = 0#4 := by
  ext i hi
  simp only [State.status, BitVec.getElem_extractLsb', BitVec.getLsbD_append]
  rw [if_neg (by omega), if_neg (by omega), if_neg (by omega)]
  simp

theorem busy_eq_decide (s : State) : s.busy = decide (s.phase ≠ .idle) := by
  simp [State.busy, bne, beq_eq_decide]

/-- Settles O8, bit field by bit field. -/
theorem statusByteHasItsFields : Obligations.StatusByteHasItsFields := by
  refine ⟨fun s => ⟨s.status, exec_hostRd_status s, ?_, ?_, status_validBit s, status_highBits s⟩,
    fun s v => exec_hostWr_status v s, exec_hostRd_status State.reset⟩
  · rw [status_busyBit, busy_eq_decide]
  · rw [status_resultBits]
    cases s.result <;> rfl

/-- R33: while RSP_VALID is 0 the result registers and RX_PARAM read 0x00. -/
theorem hostRead_result_of_not_valid {s : State} (hv : s.rspValid = false) {j : HostIndex}
    (hj : (0x005 ≤ j.toNat ∧ j.toNat ≤ 0x007) ∨ (0x200 ≤ j.toNat ∧ j.toNat ≤ 0x2FC)) :
    hostRead j s = .value 0x00 := by
  rcases hj with hj | hj
  · have hj' : j = 0x005 ∨ j = 0x006 ∨ j = 0x007 := by bv_omega
    rcases hj' with rfl | rfl | rfl <;> simp [hostRead, regAt, gated, hv]
  · have hr := regAt_rxParam (j := j) ⟨j.toNat - 0x200, by simp only [Config.maxParams]; omega⟩ (by simp only; omega)
    simp [hostRead, hr, rxParamRead, hv]

/-- Settles O1: the stored fields by computation, the result registers by `hostRead_result_of_not_valid`. -/
theorem resetStateIsTheTable : Obligations.ResetStateIsTheTable := by
  refine ⟨rfl, rfl, rfl, rfl, rfl, rfl, fun i => by simp [State.reset], rfl, rfl, exec_hostRd_status State.reset,
    fun j hj => ?_⟩
  rw [exec_hostRd, hostRead_result_of_not_valid rfl hj, respond_value]

end Sys2Proof.Machine
end

section
/-! SUPPORT. A built frame decodes as a well-formed packet of its kind (R55, R65, R66). -/

namespace Sys2Proof.Machine

/-- The body of a built frame passes every check on an outgoing body (R51, R52, R66). -/
theorem outgoingBodyOk_outgoingBody (id instr : Byte) {p : List Byte} (hp : p.length ≤ Config.maxParams) :
    outgoingBodyOk id (lengthByte p.length) (outgoingBody id instr p) = true := by
  obtain ⟨hcode, hparams, hsum⟩ := body_parts instr (checksum ([id, lengthByte p.length, instr] ++ p)) p
  simp only [outgoingBodyOk, coveredBytes, outgoingBody, hcode, hparams, hsum, checksumValid, lengthByte_toNat hp]
  simp

theorem splitPacket_buildFrame (id instr : Byte) {p : List Byte} (hp : p.length ≤ Config.maxParams) :
    splitPacket (buildFrame id instr p) = .ok (id, lengthByte p.length, outgoingBody id instr p) :=
  splitPacket_packetBytes _ _ _ (by simp [outgoingBody, lengthByte_toNat hp])

theorem frameOk_buildFrame_unicast {id : Byte} (instr : Byte) {p : List Byte} (hid : id.toNat ≤ 0xFD)
    (hp : p.length ≤ Config.maxParams) : frameOk .unicast (buildFrame id instr p) = true := by
  have hne : ∀ k : Byte, 0xFD < k.toNat → id ≠ k := by
    rintro k hk rfl
    omega
  have hdec : decodeOutgoing (buildFrame id instr p) =
      .ok (.pktInstruction id (lengthByte p.length) (outgoingBody id instr p)) := by
    simp only [decodeOutgoing, splitPacket_buildFrame id instr hp]
    rw [if_neg (hne _ (by decide)), if_neg (hne _ (by decide))]
  simp [frameOk, hdec, Instr.wellFormed, hid, outgoingBodyOk_outgoingBody id instr hp]

theorem frameOk_buildFrame_bcast (instr : Byte) {p : List Byte} (hp : p.length ≤ Config.maxParams) :
    frameOk .bcast (buildFrame Config.broadcastId instr p) = true := by
  have hdec : decodeOutgoing (buildFrame Config.broadcastId instr p) =
      .ok (.pktBroadcast (lengthByte p.length) (outgoingBody Config.broadcastId instr p)) := by
    simp only [decodeOutgoing, splitPacket_buildFrame Config.broadcastId instr hp, if_true]
  simp only [frameOk, hdec, Instr.wellFormed]
  exact outgoingBodyOk_outgoingBody Config.broadcastId instr hp

end Sys2Proof.Machine
end

section
/-! SUPPORT. The four kinds of step (one that does not reach the exchange, an accepted command, an answer, reset), what each
keeps of the block, and with them the marks (R27), the frame (R12) and the stored results (R21). -/

namespace Sys2Proof.Machine

/-- `t` keeps the exchange of `s` and its stored reply, and clears no mark. -/
structure KeepsBlock (s t : State) : Prop extends KeepsExchange s t where
  rspId : t.rspId = s.rspId
  rspError : t.rspError = s.rspError
  rspNparams : t.rspNparams = s.rspNparams
  rxParam : t.rxParam = s.rxParam
  refused : s.refused = true → t.refused = true
  faulted : s.faulted = true → t.faulted = true

theorem KeepsBlock.refl (s : State) : KeepsBlock s s :=
  ⟨.refl s, rfl, rfl, rfl, rfl, id, id⟩

theorem KeepsBlock.trans {s t u : State} (h : KeepsBlock s t) (h' : KeepsBlock t u) : KeepsBlock s u where
  toKeepsExchange := h.toKeepsExchange.trans h'.toKeepsExchange
  rspId := h'.rspId.trans h.rspId
  rspError := h'.rspError.trans h.rspError
  rspNparams := h'.rspNparams.trans h.rspNparams
  rxParam := h'.rxParam.trans h.rxParam
  refused := h'.refused ∘ h.refused
  faulted := h'.faulted ∘ h.faulted

theorem setInputs_keepsBlock (rest : List Input) (s : State) : KeepsBlock s (setInputs rest s) :=
  ⟨setInputs_keepsExchange rest s, rfl, rfl, rfl, rfl, id, id⟩

theorem respond_keepsBlock (r : HostReply) (s : State) : KeepsBlock s (respond r s) :=
  ⟨respond_keepsExchange r s, rfl, rfl, rfl, rfl, fun h => by simp [h], fun h => by simp [h]⟩

theorem refuse_keepsBlock (r : RefuseReason) (s : State) : KeepsBlock s (refuse r s) :=
  respond_keepsBlock (.refusal r) s

/-- R28: the staging registers are no part of the exchange, whatever a host write leaves in them. -/
theorem staging_keepsBlock (r : HostReply) (s : State) (id instr n : Byte)
    (p : Vector (Option Byte) Config.maxParams) :
    KeepsBlock s (respond r { s with cmdId := id, cmdInstr := instr, cmdNparams := n, txParam := p }) where
  toKeepsExchange := ⟨rfl, rfl, rfl, rfl, rfl, rfl, rfl⟩
  rspId := rfl
  rspError := rfl
  rspNparams := rfl
  rxParam := rfl
  refused h := by simp [h]
  faulted h := by simp [h]

/-- `t` is the idle state `s` with a command accepted, whose frame is a packet of the command's kind. -/
def AcceptsCommand (s t : State) : Prop :=
  s.phase = .idle ∧ ∃ k id, frameOk k (accept k id s).txFrame = true ∧ t = respond .done (accept k id s)

/-- R48, R73, R87: what a CTRL write does to the block. -/
theorem command_keepsBlock_or_accepts (v : Byte) (s : State) :
    KeepsBlock s (command v s) ∨ AcceptsCommand s (command v s) := by
  obtain ⟨r, h⟩ | ⟨hidle, hn, hu, hc⟩ := command_cases v s
  · exact .inl (h ▸ refuse_keepsBlock r s)
  · have hp : (stagedParams s.txParam s.cmdNparams.toNat).length ≤ Config.maxParams :=
      (stagedParams_length hn hu).trans_le hn
    obtain ⟨-, hid, h⟩ | ⟨-, h⟩ := hc
    · exact .inr ⟨hidle, .unicast, s.cmdId, frameOk_buildFrame_unicast s.cmdInstr hid hp, h⟩
    · exact .inr ⟨hidle, .bcast, Config.broadcastId, frameOk_buildFrame_bcast s.cmdInstr hp, h⟩

/-- R31, R34: what a host write does to the block. -/
theorem hostWrite_keepsBlock_or_accepts (j : HostIndex) (v : Byte) (s : State) :
    KeepsBlock s (hostWrite j v s) ∨ AcceptsCommand s (hostWrite j v s) := by
  obtain ⟨-, h⟩ | ⟨-, h⟩ | ⟨-, h⟩ | ⟨-, h⟩ | ⟨i, -, h⟩ | h := hostWrite_cases j v s <;> rw [h]
  · exact command_keepsBlock_or_accepts v s
  · exact .inl (staging_keepsBlock .done s v s.cmdInstr s.cmdNparams s.txParam)
  · exact .inl (staging_keepsBlock .done s s.cmdId v s.cmdNparams s.txParam)
  · exact .inl (staging_keepsBlock .done s s.cmdId s.cmdInstr v s.txParam)
  · exact .inl (staging_keepsBlock .done s s.cmdId s.cmdInstr s.cmdNparams (s.txParam.set i (some v)))
  · exact .inl (refuse_keepsBlock (.badAccess j) s)

/-- The four kinds of step. -/
theorem step_transition {s t : State} (h : step s = .next t) :
    KeepsBlock s t ∨
      (∃ rest, AcceptsCommand (setInputs rest s) t) ∨
      (∃ a rest, s.inputs = .answer a :: rest ∧ deliver a (setInputs rest s) = .next t) ∨
      (∃ rest, s.inputs = .reset :: rest ∧ t = resetBlock (setInputs rest s)) := by
  obtain ⟨-, rfl⟩ | ⟨m, rest, hi, hmove⟩ := step_cases h
  · exact .inl (.refl t)
  · have hrest := setInputs_keepsBlock rest s
    obtain ⟨v, -, rfl⟩ | ⟨w, -, hword⟩ | ⟨a, rfl, hd⟩ | ⟨a, -, rfl⟩ | ⟨rfl, ht⟩ := hmove
    · exact (command_keepsBlock_or_accepts v _).imp hrest.trans fun hacc => .inl ⟨rest, hacc⟩
    · obtain ⟨j, v, -, rfl⟩ | ⟨j, -, rfl⟩ | rfl := hword
      · exact (hostWrite_keepsBlock_or_accepts j v _).imp hrest.trans fun hacc => .inl ⟨rest, hacc⟩
      · exact .inl (hrest.trans (respond_keepsBlock _ _))
      · exact .inl (hrest.trans (refuse_keepsBlock _ _))
    · exact .inr (.inr (.inl ⟨a, rest, hi, hd⟩))
    · exact .inl hrest
    · exact .inr (.inr (.inr ⟨rest, hi, ht⟩))

/-- R75 to R82, R88: an answer finishes the exchange, issues the next receive of a SEND, or stores a reply of a possible
length and finishes OK. -/
theorem deliver_transition {a : Answer} {s t : State} (h : deliver a s = .next t) :
    (s.phase ≠ .idle ∧ ∃ r, t = finish r s) ∨
      (s.phase = .txWait ∧ s.kind = .unicast ∧ t = awaitHeader s) ∨
      (s.phase = .hdrWait ∧ ∃ id len, t = latchHeader id len s) ∨
      (s.phase = .bodyWait ∧ 2 ≤ s.latLen.toNat ∧ ∃ bytes, a = .data bytes ∧ t = finish .ok (storeReply bytes s)) := by
  obtain ⟨hp, -, rfl⟩ | ⟨hp, -, rfl⟩ | ⟨bytes, hp, -, -, rfl⟩ | ⟨bytes, hp, ha, -, rfl⟩ := deliver_next_cases h
  · obtain ⟨hk, ht⟩ | ⟨-, ht⟩ := txDone_cases s
    · exact .inr (.inl ⟨hp, hk, ht⟩)
    · exact .inl ⟨by simp [hp], .ok, ht⟩
  · exact .inl ⟨hp, .transportFault, rfl⟩
  · obtain ⟨id, len, -, -, ht⟩ | ⟨-, ht⟩ := hdrAnswer_cases bytes s
    · exact .inr (.inr (.inl ⟨hp, id, len, ht⟩))
    · exact .inl ⟨by simp [hp], .commError, ht⟩
  · obtain ⟨-, hlen, -, ht⟩ | ⟨-, ht⟩ := bodyAnswer_cases bytes s
    · exact .inr (.inr (.inr ⟨hp, hlen, bytes, ha, ht⟩))
    · exact .inl ⟨by simp [hp], .commError, ht⟩

/-- No answer reaches the frame or a mark. -/
theorem deliver_keeps_frame_and_marks {a : Answer} {s t : State} (h : deliver a s = .next t) :
    t.txFrame = s.txFrame ∧ t.refused = s.refused ∧ t.faulted = s.faulted := by
  obtain ⟨-, r, rfl⟩ | ⟨-, -, rfl⟩ | ⟨-, id, len, rfl⟩ | ⟨-, -, bytes, -, rfl⟩ := deliver_transition h <;>
    exact ⟨rfl, rfl, rfl⟩

/-- Settles O39: a host access only sets marks, and the other steps leave them. -/
theorem marksAreNeverCleared : Obligations.MarksAreNeverCleared := by
  intro s t h
  obtain hk | ⟨rest, -, k, id, -, rfl⟩ | ⟨a, rest, -, hd⟩ | ⟨rest, -, rfl⟩ := step_transition h
  · exact ⟨hk.refused, hk.faulted⟩
  · have hk := respond_keepsBlock .done (accept k id (setInputs rest s))
    exact ⟨hk.refused, hk.faulted⟩
  · obtain ⟨-, hrefused, hfaulted⟩ := deliver_keeps_frame_and_marks hd
    exact ⟨hrefused.trans, hfaulted.trans⟩
  · exact ⟨id, id⟩

/-- Settles O43: only an accepted command and a reset write the frame, and a command is accepted in IDLE only. -/
theorem frameIsFrozenWhileBusy : Obligations.FrameIsFrozenWhileBusy := by
  intro s t h hbusy hreset
  obtain hk | ⟨rest, hidle, -⟩ | ⟨a, rest, -, hd⟩ | ⟨rest, hi, -⟩ := step_transition h
  · exact hk.txFrame
  · exact absurd hidle hbusy
  · obtain ⟨hframe, -⟩ := deliver_keeps_frame_and_marks hd
    exact hframe
  · exact absurd hi (hreset rest)

/-- Settles O44: of all the moves only the whole legal body stores a reply. -/
theorem resultsChangeOnlyOnSuccess : Obligations.ResultsChangeOnlyOnSuccess := by
  intro s t h
  obtain hk | ⟨rest, -, k, id, -, rfl⟩ | ⟨a, rest, hi, hd⟩ | ⟨rest, -, rfl⟩ := step_transition h
  · exact .inl ⟨hk.rspId, hk.rspError, hk.rspNparams, hk.rxParam, hk.rspValid ▸ id⟩
  · exact .inl ⟨rfl, rfl, rfl, rfl, nofun⟩
  · obtain ⟨-, r, rfl⟩ | ⟨-, -, rfl⟩ | ⟨-, id, len, rfl⟩ | ⟨hp, -, bytes, rfl, rfl⟩ := deliver_transition hd
    · exact .inl ⟨rfl, rfl, rfl, rfl, fun hv => hv⟩
    · exact .inl ⟨rfl, rfl, rfl, rfl, fun hv => hv⟩
    · exact .inl ⟨rfl, rfl, rfl, rfl, fun hv => hv⟩
    · exact .inr ⟨hp, rfl, rfl, rfl, bytes, rest, hi⟩
  · exact .inl ⟨rfl, rfl, rfl, rfl, nofun⟩

end Sys2Proof.Machine
end

section
/-! SUPPORT. Each kind of step keeps the sequencer's invariant. -/

namespace Sys2Proof.Machine

theorem KeepsBlock.inv {s t : State} (h : KeepsBlock s t) (hs : s.Inv) : t.Inv := by
  constructor
  · rw [h.phase, h.kind, h.txFrame]
    exact hs.frame
  · rw [h.phase, h.kind]
    exact hs.receiving
  · rw [h.phase, h.result, h.rspValid]
    exact hs.busy
  · rw [h.rspValid, h.result]
    exact hs.valid
  · rw [h.rspNparams]
    exact hs.count

theorem AcceptsCommand.inv {s t : State} (h : AcceptsCommand s t) (hs : s.Inv) : t.Inv := by
  obtain ⟨-, k, id, hframe, rfl⟩ := h
  exact (respond_keepsBlock .done (accept k id s)).inv
    { frame := fun _ => hframe
      receiving := by simp
      busy := fun _ => ⟨rfl, rfl⟩
      valid := nofun
      count := hs.count }

/-- The stored count of a reply of a possible length is at most MAXP (R6, R51). -/
theorem replyCount_le {len : Byte} (h : 2 ≤ len.toNat) : (len - 2).toNat ≤ Config.maxParams := by
  simp only [Config.maxParams]
  bv_omega

theorem deliver_inv {a : Answer} {s t : State} (h : deliver a s = .next t) (hs : s.Inv) : t.Inv := by
  obtain ⟨hb, r, rfl⟩ | ⟨hp, hk, rfl⟩ | ⟨hp, id, len, rfl⟩ | ⟨-, hlen, bytes, -, rfl⟩ := deliver_transition h
  · obtain ⟨-, hinvalid⟩ := hs.busy hb
    exact .of_idle rfl (fun hv => absurd (hinvalid.symm.trans hv) nofun) hs.count
  · have hb : s.phase ≠ .idle := by simp [hp]
    exact ⟨fun _ => hs.frame hb, fun _ => hk, fun _ => hs.busy hb, hs.valid, hs.count⟩
  · have hb : s.phase ≠ .idle := by simp [hp]
    exact ⟨fun _ => hs.frame hb, fun _ => hs.receiving (.inl hp), fun _ => hs.busy hb, hs.valid, hs.count⟩
  · exact .of_idle rfl (fun _ => rfl) (replyCount_le hlen)

theorem resetBlock_inv {s : State} (hs : s.Inv) : (resetBlock s).Inv :=
  .of_idle rfl nofun hs.count

/-- Settles O38: each of the four kinds of step keeps the invariant. -/
theorem invariantIsKept : Obligations.InvariantIsKept := by
  intro s t hs h
  have hrest (rest : List Input) : (setInputs rest s).Inv := (setInputs_keepsBlock rest s).inv hs
  obtain hk | ⟨rest, hacc⟩ | ⟨a, rest, -, hd⟩ | ⟨rest, -, rfl⟩ := step_transition h
  · exact hk.inv hs
  · exact hacc.inv (hrest rest)
  · exact deliver_inv hd (hrest rest)
  · exact resetBlock_inv (hrest rest)

end Sys2Proof.Machine
end

section
/-! SUPPORT. The host's reads and refused writes (R32 to R35), and the answers and frame writes of the transport that the
contract allows and excludes (R37 to R40). -/

namespace Sys2Proof.Machine

theorem exec_hostRd_value {j : HostIndex} {v : Byte} {s : State} (h : hostRead j s = .value v) :
    exec (.hostRd j) s = .next { s with hostReply := .value v } := by
  rw [exec_hostRd, h, respond_value]

theorem exec_hostRd_noValue {j : HostIndex} {f : ReadFault} {s : State} (h : hostRead j s = .noValue f) :
    exec (.hostRd j) s = .next { s with hostReply := .noValue f, faulted := true } := by
  rw [exec_hostRd, h]
  simp [respond]

theorem exec_hostRd_refusal {j : HostIndex} {r : RefuseReason} {s : State} (h : hostRead j s = .refusal r) :
    exec (.hostRd j) s = .next { s with hostReply := .refusal r, refused := true } := by
  rw [exec_hostRd, h, ← refuse_eq]
  rfl

theorem hostRead_txParam {j : HostIndex} (i : Fin Config.maxParams) (h : j.toNat = 0x100 + i.val) (s : State) :
    hostRead j s = txParamRead i s := by
  simp only [hostRead, regAt_txParam i h]

theorem hostRead_rxParam {j : HostIndex} (i : Fin Config.maxParams) (h : j.toNat = 0x200 + i.val) (s : State) :
    hostRead j s = .value (rxParamRead i s) := by
  simp only [hostRead, regAt_rxParam i h]

theorem hostRead_reserved {j : HostIndex}
    (h : (0x008 ≤ j.toNat ∧ j.toNat ≤ 0x0FF) ∨ (0x1FD ≤ j.toNat ∧ j.toNat ≤ 0x1FF) ∨ 0x2FD ≤ j.toNat) (s : State) :
    hostRead j s = .refusal (.badAccess j) := by
  simp only [hostRead, regAt_reserved h]

theorem txParamRead_written {i : Fin Config.maxParams} {v : Byte} {s : State} (h : s.txParam[i] = some v) :
    txParamRead i s = .value v := by
  simp only [txParamRead, h]

theorem txParamRead_unwritten {i : Fin Config.maxParams} {s : State} (h : s.txParam[i] = none) :
    txParamRead i s = .noValue (.unwrittenTxParam i.val) := by
  simp only [txParamRead, h]

/-- Settles O7: the four fixed indices by the register map, TX_PARAM[i] by whether the entry is written. -/
theorem stagingReadsReturnTheByte : Obligations.StagingReadsReturnTheByte := by
  refine fun s => ⟨exec_hostRd_status s, exec_hostRd_value rfl, exec_hostRd_value rfl, exec_hostRd_value rfl,
    fun j i hj => ⟨fun v hv => ?_, fun hnone => ?_⟩⟩
  · exact exec_hostRd_value ((hostRead_txParam i hj s).trans (txParamRead_written hv))
  · exact exec_hostRd_noValue ((hostRead_txParam i hj s).trans (txParamRead_unwritten hnone))

theorem rxParamRead_eq (i : Fin Config.maxParams) (s : State) :
    rxParamRead i s = if s.rspValid = true ∧ i.val < s.rspNparams.toNat then s.rxParam[i] else 0x00 := by
  simp only [rxParamRead, Bool.and_eq_true, decide_eq_true_eq, BitVec.ofNat_eq_ofNat]

/-- Settles O9: the three result registers by the register map, RX_PARAM[i] by `rxParamRead_eq`. -/
theorem resultReadsAreGated : Obligations.ResultReadsAreGated := by
  refine fun s => ⟨exec_hostRd_value rfl, exec_hostRd_value rfl, exec_hostRd_value rfl, fun j i hj => ?_⟩
  rw [← rxParamRead_eq]
  exact exec_hostRd_value (hostRead_rxParam i hj s)

/-- R31, R34: a write is refused at every index that is neither CTRL nor a staging register. -/
theorem exec_hostWr_refused {j : HostIndex}
    (hj : j.toNat = 0x001 ∨ (0x005 ≤ j.toNat ∧ j.toNat ≤ 0x0FF) ∨ 0x1FD ≤ j.toNat) (v : Byte) (s : State) :
    exec (.hostWr j v) s = .next { s with hostReply := .refusal (.badAccess j), refused := true } := by
  rw [← refuse_eq]
  refine congrArg Host.Outcome.next (?_ : hostWrite j v s = _)
  have hne : ∀ k : HostIndex, k.toNat = 0 ∨ (2 ≤ k.toNat ∧ k.toNat ≤ 4) → j ≠ k := by
    rintro k hk rfl
    omega
  obtain ⟨h0, -⟩ | ⟨h2, -⟩ | ⟨h3, -⟩ | ⟨h4, -⟩ | ⟨i, hi, -⟩ | h := hostWrite_cases j v s
  · exact absurd h0 (hne _ (by decide))
  · exact absurd h2 (hne _ (by decide))
  · exact absurd h3 (hne _ (by decide))
  · exact absurd h4 (hne _ (by decide))
  · have : i.val < 253 := i.isLt
    omega
  · exact h

/-- Settles O10: writes by `exec_hostWr_refused`, reads of reserved indices and of CTRL by the register map. -/
theorem unsupportedAccessesAreRefused : Obligations.UnsupportedAccessesAreRefused := by
  refine fun j v s => ⟨fun hj => ⟨exec_hostWr_refused (by omega) v s, ?_⟩, fun hj => ?_, ?_⟩
  · exact exec_hostRd_refusal (hostRead_reserved hj s)
  · refine exec_hostWr_refused ?_ v s
    obtain rfl | hj := hj
    · exact .inl rfl
    · omega
  · rintro rfl
    exact exec_hostRd_refusal rfl

/-- R35: no read depends on what the host was answered before or on the marks. -/
theorem hostRead_respond (j : HostIndex) (r : HostReply) (s : State) : hostRead j (respond r s) = hostRead j s := rfl

theorem respond_respond (r : HostReply) (s : State) : respond r (respond r s) = respond r s := by
  simp [respond]

/-- Settles O11: the read is `respond` with what `hostRead` answers, and `hostRead` answers the same after it. -/
theorem readsChangeNothingAndRepeat : Obligations.ReadsChangeNothingAndRepeat := by
  intro j s
  have hrepeat : exec (.hostRd j) (respond (hostRead j s) s) = .next (respond (hostRead j s) s) := by
    rw [exec_hostRd, hostRead_respond, respond_respond]
  exact ⟨hostRead j s, s.refused || (hostRead j s).isRefusal, s.faulted || (hostRead j s).isNoValue,
    exec_hostRd j s, hrepeat⟩

/-- R37: the request outstanding in each phase. -/
theorem request_eq_some_iff {s : State} {r : Request} :
    s.request = some r ↔
      (s.phase = .txWait ∧ r = .txSend s.txFrame) ∨ (s.phase = .hdrWait ∧ r = .rxRecv 4) ∨
        (s.phase = .bodyWait ∧ r = .rxRecv s.latLen.toNat) := by
  cases h : s.phase <;> simp [State.request, h, eq_comm]

theorem exists_request_iff {s : State} : (∃ r, s.request = some r) ↔ s.phase ≠ .idle := by
  cases h : s.phase <;> simp [State.request, h]

/-- R38, R39: every request can fail. -/
theorem allowed_fail (r : Request) : Answer.allowed r .fail = true := by
  cases r <;> rfl

/-- R38, R39: every answer the contract allows is taken. -/
theorem deliver_of_allowed {a : Answer} {r : Request} {s : State} (hr : s.request = some r)
    (ha : Answer.allowed r a = true) : ∃ t, deliver a s = .next t := by
  cases a with
  | fail => exact ⟨_, deliver_fail (exists_request_iff.mp ⟨r, hr⟩)⟩
  | ok =>
    obtain ⟨hp, rfl⟩ | ⟨-, rfl⟩ | ⟨-, rfl⟩ := request_eq_some_iff.mp hr
    · exact ⟨_, deliver_ok hp⟩
    · cases ha
    · cases ha
  | data bytes =>
    obtain ⟨-, rfl⟩ | ⟨hp, rfl⟩ | ⟨hp, rfl⟩ := request_eq_some_iff.mp hr
    · cases ha
    · exact ⟨_, deliver_header hp (of_decide_eq_true ha)⟩
    · exact ⟨_, deliver_body hp (of_decide_eq_true ha)⟩

/-- R40: every answer that is taken is one the contract allows. -/
theorem allowed_of_deliver {a : Answer} {s t : State} (h : deliver a s = .next t) :
    ∃ r, s.request = some r ∧ Answer.allowed r a = true := by
  obtain ⟨hp, rfl, -⟩ | ⟨hp, rfl, -⟩ | ⟨bytes, hp, rfl, hl, -⟩ | ⟨bytes, hp, rfl, hl, -⟩ := deliver_next_cases h
  · exact ⟨_, request_eq_some_iff.mpr (.inl ⟨hp, rfl⟩), rfl⟩
  · obtain ⟨r, hr⟩ := exists_request_iff.mpr hp
    exact ⟨r, hr, allowed_fail r⟩
  · exact ⟨_, request_eq_some_iff.mpr (.inr (.inl ⟨hp, rfl⟩)), decide_eq_true hl⟩
  · exact ⟨_, request_eq_some_iff.mpr (.inr (.inr ⟨hp, rfl⟩)), decide_eq_true hl⟩

/-- An answer always has a meaning: it is taken, or the model stops with a fault (log entry 10). -/
theorem deliver_next_or_fault (a : Answer) (s : State) :
    (∃ t, deliver a s = .next t) ∨ ∃ f, deliver a s = .fault f := by
  cases hp : s.phase <;> cases a
  case hdrWait.data bytes =>
    obtain hl | hl := Nat.lt_or_ge 4 bytes.length
    · exact .inr ⟨_, deliver_header_overlong hp hl⟩
    · exact .inl ⟨_, deliver_header hp hl⟩
  case bodyWait.data bytes =>
    obtain hl | hl := Nat.lt_or_ge s.latLen.toNat bytes.length
    · exact .inr ⟨_, deliver_body_overlong hp hl⟩
    · exact .inl ⟨_, deliver_body hp hl⟩
  all_goals simp [deliver, hp]

/-- Settles O35: a step on an answer delivers it, and `deliver` takes exactly what the contract allows. -/
theorem answersAreTheContracts : Obligations.AnswersAreTheContracts := by
  intro s a rest hi
  rw [step_answer hi]
  refine ⟨fun ⟨r, hr, ha⟩ => deliver_of_allowed (s := setInputs rest s) hr ha, fun hnot => ?_⟩
  obtain ⟨t, ht⟩ | hfault := deliver_next_or_fault a (setInputs rest s)
  · exact absurd (allowed_of_deliver ht) hnot
  · exact hfault

theorem frameWritten_unsolicited {s : State} (hp : s.phase ≠ .txWait) (frame : List Byte) :
    frameWritten frame s = .fault .unsolicitedAnswer :=
  if_neg hp

theorem frameWritten_foreign {frame : List Byte} {s : State} (hp : s.phase = .txWait) (hf : s.txFrame ≠ frame) :
    frameWritten frame s = .fault .foreignFrame :=
  (if_pos hp).trans (if_neg hf)

/-- Settles O27: both packets are `frameWritten` of their bytes. -/
theorem foreignFrameStops : Obligations.ForeignFrameStops :=
  fun _ _ _ _ => ⟨fun hp => ⟨frameWritten_unsolicited hp _, frameWritten_unsolicited hp _⟩,
    fun hp hf => frameWritten_foreign hp hf, fun hp hf => frameWritten_foreign hp hf⟩

end Sys2Proof.Machine
end

section
/-! SUPPORT. What each decoder does, case by case, and with it that the decoder and the encoder are inverse (R48, R50 to R54,
R63, R65, R66), and what is rejected (R60, R61). -/

namespace Sys2Proof.Machine

/-- R48: everything the decoder of CTRL bytes does. -/
theorem decode_command_cases (v : Byte) :
    (v = 0x01 ∧ decode (.command v) = .ok .send) ∨ (v = 0x02 ∧ decode (.command v) = .ok .broadcast) ∨
      (v ≠ 0x01 ∧ v ≠ 0x02 ∧ decode (.command v) = .error (.reservedCommand v)) := by
  by_cases h1 : v = 0x01
  · exact .inl ⟨h1, if_pos h1⟩
  · by_cases h2 : v = 0x02
    · exact .inr (.inl ⟨h2, (if_neg h1).trans (if_pos h2)⟩)
    · exact .inr (.inr ⟨h1, h2, (if_neg h1).trans (if_neg h2)⟩)

/-- R63: everything the decoder of host words does. -/
theorem decode_hostOp_cases (w : HostWord) :
    (hostOpIsWrite w = true ∧ decode (.hostOp w) = .ok (.hostWr (hostOpIndex w) (hostOpData w))) ∨
      (hostOpIsWrite w = false ∧ hostOpData w = 0 ∧ decode (.hostOp w) = .ok (.hostRd (hostOpIndex w))) ∨
      (hostOpIsWrite w = false ∧ hostOpData w ≠ 0 ∧ decode (.hostOp w) = .error .badHostWord) := by
  cases hw : hostOpIsWrite w
  · have hread : ¬ hostOpIsWrite w = true := by simp [hw]
    by_cases hd : hostOpData w = 0
    · exact .inr (.inl ⟨rfl, hd, (if_neg hread).trans (if_pos hd)⟩)
    · exact .inr (.inr ⟨rfl, hd, (if_neg hread).trans (if_neg hd)⟩)
  · exact .inl ⟨rfl, if_pos hw⟩

/-- R55, R65: an outgoing packet of the length its byte 3 says is told by its id alone. -/
theorem decode_outgoing_packetBytes (id : Byte) {len : Byte} {body : List Byte} (hl : body.length = len.toNat) :
    decode (.outgoing (packetBytes id len body)) =
      if id = 0xFF then .error .reservedId
      else if id = 0xFE then .ok (.pktBroadcast len body)
      else .ok (.pktInstruction id len body) := by
  simp only [decode, decodeOutgoing, splitPacket_packetBytes id len body hl]
  by_cases hid : id = 0xFF
  · subst hid
    rfl
  · rw [if_neg hid, if_neg hid]

theorem decode_incoming_packetBytes (id : Byte) {len : Byte} {body : List Byte} (hl : body.length = len.toNat) :
    decode (.incoming (packetBytes id len body)) = .ok (.pktStatus id len body) := by
  simp only [decode, decodeIncoming, splitPacket_packetBytes id len body hl]

/-- R61: bytes that do not split are rejected alike in both directions. -/
theorem decode_of_splitPacket_error {bytes : List Byte} {e : DecodeError} (h : splitPacket bytes = .error e) :
    decode (.outgoing bytes) = .error e ∧ decode (.incoming bytes) = .error e := by
  simp [decode, decodeOutgoing, decodeIncoming, h]

/-- R55: an id of PKT_INSTRUCTION is neither the broadcast id nor the reserved one. -/
theorem decode_outgoing_instruction {id len : Byte} {body : List Byte} (hid : id.toNat ≤ 0xFD)
    (hl : body.length = len.toNat) :
    decode (.outgoing (packetBytes id len body)) = .ok (.pktInstruction id len body) := by
  have hne : ∀ k : Byte, 0xFD < k.toNat → id ≠ k := by
    rintro k hk rfl
    omega
  rw [decode_outgoing_packetBytes id hl, if_neg (hne _ (by decide)), if_neg (hne _ (by decide))]

theorem decode_outgoing_broadcast {len : Byte} {body : List Byte} (hl : body.length = len.toNat) :
    decode (.outgoing (packetBytes Config.broadcastId len body)) = .ok (.pktBroadcast len body) :=
  decode_outgoing_packetBytes Config.broadcastId hl

theorem length_of_outgoingBodyOk {id len : Byte} {body : List Byte} (h : outgoingBodyOk id len body = true) :
    body.length = len.toNat := by
  simp only [outgoingBodyOk, Bool.and_eq_true, beq_iff_eq] at h
  obtain ⟨⟨hl, -⟩, -⟩ := h
  exact hl

/-- Settles O51, row by row: a host word by its three fields, a packet by its id and its length byte. -/
theorem decodeOfEncodeIsTheInstruction : Obligations.DecodeOfEncodeIsTheInstruction := by
  intro i hi
  cases i with
  | send => rfl
  | broadcast => rfl
  | pktInstruction id len body =>
    obtain ⟨hid, hbody⟩ := Bool.and_eq_true_iff.mp hi
    exact decode_outgoing_instruction (of_decide_eq_true hid) (length_of_outgoingBodyOk hbody)
  | pktBroadcast len body => exact decode_outgoing_broadcast (length_of_outgoingBodyOk hi)
  | pktStatus id len body => exact decode_incoming_packetBytes id (eq_of_beq hi)
  | hostWr j v => simp [encode, decode, decodeHostOp]
  | hostRd j => simp [encode, decode, decodeHostOp]

/-- Settles O52: what each decoder read says what the code was. -/
theorem encodeOfDecodeIsTheCode : Obligations.EncodeOfDecodeIsTheCode := by
  intro c i h
  cases c with
  | command v =>
    obtain ⟨rfl, hv⟩ | ⟨rfl, hv⟩ | ⟨-, -, hv⟩ := decode_command_cases v <;> cases hv.symm.trans h <;> rfl
  | hostOp w =>
    obtain ⟨hw, hd⟩ | ⟨hw, hz, hd⟩ | ⟨-, -, hd⟩ := decode_hostOp_cases w <;> cases hd.symm.trans h
    · rw [encode, ← hw, encodeHostOp_fields]
    · rw [encode, ← hw, ← hz, encodeHostOp_fields]
  | outgoing bytes =>
    obtain ⟨len, body, rfl, rfl, -⟩ | ⟨id, len, body, rfl, rfl, -⟩ := decodeOutgoing_ok h <;> rfl
  | incoming bytes =>
    obtain ⟨id, len, body, rfl, rfl, -⟩ := decodeIncoming_ok h
    rfl

theorem outgoingBody_length (id instr : Byte) {p : List Byte} (hp : p.length ≤ Config.maxParams) :
    (outgoingBody id instr p).length = (lengthByte p.length).toNat :=
  length_of_outgoingBodyOk (outgoingBodyOk_outgoingBody id instr hp)

/-- Settles O20: a built frame is the packet of its operands, whose body passes every check. -/
theorem emittedFrameIsAnOutgoingPacket : Obligations.EmittedFrameIsAnOutgoingPacket := by
  intro id instr p hp
  have hl := outgoingBody_length id instr hp
  have hok := outgoingBodyOk_outgoingBody id instr hp
  refine ⟨fun hid => ⟨_, _, decode_outgoing_instruction hid hl, ?_⟩, ?_, ?_⟩
  · exact Bool.and_eq_true_iff.mpr ⟨decide_eq_true hid, hok⟩
  · rintro rfl
    exact ⟨_, _, decode_outgoing_broadcast hl, hok⟩
  · rintro rfl
    exact decode_outgoing_packetBytes 0xFF hl

theorem decode_command_reserved_iff (v : Byte) :
    decode (.command v) = .error (.reservedCommand v) ↔ v ≠ 0x01 ∧ v ≠ 0x02 := by
  obtain ⟨h1, h⟩ | ⟨h2, h⟩ | ⟨h1, h2, h⟩ := decode_command_cases v
  · exact iff_of_false (h ▸ nofun) fun hne => hne.1 h1
  · exact iff_of_false (h ▸ nofun) fun hne => hne.2 h2
  · exact iff_of_true h ⟨h1, h2⟩

theorem decode_command_ok_iff (v : Byte) : (∃ i, decode (.command v) = .ok i) ↔ v = 0x01 ∨ v = 0x02 := by
  obtain ⟨h1, h⟩ | ⟨h2, h⟩ | ⟨h1, h2, h⟩ := decode_command_cases v
  · exact iff_of_true ⟨_, h⟩ (.inl h1)
  · exact iff_of_true ⟨_, h⟩ (.inr h2)
  · simp only [h, h1, h2, reduceCtorEq, exists_false, or_self]

/-- R63: bit 18 of a host word, by the word's number. -/
theorem hostOpIsWrite_iff (w : HostWord) : hostOpIsWrite w = true ↔ 2 ^ 18 ≤ w.toNat := by
  rw [hostOpIsWrite, ← BitVec.msb_eq_getLsbD_last, BitVec.msb_eq_decide, decide_eq_true_iff]

/-- R63: bits 7:0 of a host word, by the word's number. -/
theorem hostOpData_eq_zero_iff (w : HostWord) : hostOpData w = 0 ↔ w.toNat % 2 ^ 8 = 0 := by
  rw [BitVec.toNat_eq, hostOpData, BitVec.extractLsb'_toNat, Nat.shiftRight_zero]
  rfl

/-- R63: a word is malformed where it is a read with data bits other than 0. -/
theorem malformed_iff (w : HostWord) :
    hostOpIsWrite w = false ∧ hostOpData w ≠ 0 ↔ w.toNat < 2 ^ 18 ∧ w.toNat % 2 ^ 8 ≠ 0 := by
  rw [← Bool.not_eq_true, hostOpIsWrite_iff, Nat.not_le, ne_eq, hostOpData_eq_zero_iff]

theorem decode_hostOp_bad_iff (w : HostWord) :
    decode (.hostOp w) = .error .badHostWord ↔ w.toNat < 2 ^ 18 ∧ w.toNat % 2 ^ 8 ≠ 0 := by
  rw [← malformed_iff]
  obtain ⟨hw, h⟩ | ⟨hw, hz, h⟩ | ⟨hw, hd, h⟩ := decode_hostOp_cases w
  · simp [h, hw]
  · simp [h, hz]
  · exact iff_of_true h ⟨hw, hd⟩

theorem decode_hostOp_ok_iff (w : HostWord) :
    (∃ i, decode (.hostOp w) = .ok i) ↔ 2 ^ 18 ≤ w.toNat ∨ w.toNat % 2 ^ 8 = 0 := by
  rw [← hostOpIsWrite_iff, ← hostOpData_eq_zero_iff]
  obtain ⟨hw, h⟩ | ⟨hw, hz, h⟩ | ⟨hw, hd, h⟩ := decode_hostOp_cases w
  · exact iff_of_true ⟨_, h⟩ (.inl hw)
  · exact iff_of_true ⟨_, h⟩ (.inr hz)
  · simp only [h, hw, hd, reduceCtorEq, exists_false, or_self]

/-- Settles O53: CTRL bytes and host words by the cases of their decoders, packets by what `splitPacket` finds wrong. -/
theorem reservedEncodingsAreRejected : Obligations.ReservedEncodingsAreRejected := by
  refine ⟨decode_command_reserved_iff, decode_command_ok_iff, decode_hostOp_bad_iff, decode_hostOp_ok_iff,
    ?_, ?_, ?_, ?_⟩
  · exact fun bytes h => decode_of_splitPacket_error (splitPacket_truncated h)
  · exact fun m0 m1 id len body h => decode_of_splitPacket_error (splitPacket_badMarker id len body h)
  · exact fun id len body h => decode_of_splitPacket_error (splitPacket_badLength id h)
  · exact fun id len body h => ⟨decode_incoming_packetBytes id h, decode_outgoing_packetBytes id h⟩

/-- Settles O13: the word is malformed, and a malformed word is refused. -/
theorem malformedHostWordIsRefused : Obligations.MalformedHostWordIsRefused := by
  intro s w rest hi hlt hdata
  obtain ⟨hw, hd⟩ := (malformed_iff w).mpr ⟨hlt, hdata⟩
  rw [step_hostOp_bad hi hw hd, refuse_eq]
  rfl

end Sys2Proof.Machine
end

section
/-! SUPPORT. Command(v) case by case (R48), the acceptance of a command whose operands are staged (R73, R87), and the writes
that SEND and BROADCAST expand to (R64). -/

namespace Sys2Proof.Machine

theorem command_busy {s : State} (hb : s.phase ≠ .idle) (v : Byte) : command v s = refuse .commandWhileBusy s :=
  if_pos hb

theorem command_send {s : State} (hp : s.phase = .idle) : command 0x01 s = acceptSend s := by
  simp [command, hp]

theorem command_broadcast {s : State} (hp : s.phase = .idle) : command 0x02 s = acceptBroadcast s := by
  simp [command, hp]

theorem command_reserved {s : State} (hp : s.phase = .idle) {v : Byte} (h1 : v ≠ 0x01) (h2 : v ≠ 0x02) :
    command v s = refuse (.reservedCommand v) s := by
  rw [command, if_neg (not_not_intro hp), if_neg h1, if_neg h2]

/-- R31: a host write of CTRL is Command(v). -/
theorem exec_hostWr_ctrl (v : Byte) (s : State) : exec (.hostWr 0x000 v) s = .next (command v s) := rfl

/-- Settles O12, by the cases of `command`. -/
theorem ctrlWriteIssuesTheCommand : Obligations.CtrlWriteIssuesTheCommand := by
  intro v s
  rw [exec_hostWr_ctrl]
  refine ⟨fun hb => ?_, fun hp => ⟨?_, ?_, fun h1 h2 => ?_⟩⟩
  · rw [command_busy hb, refuse_eq]
  · rintro rfl
    rfl
  · rintro rfl
    rfl
  · rw [command_reserved hp h1 h2, refuse_eq]

/-- R73: a legal id leaves the checks that both commands make. -/
theorem acceptSend_of_id {s : State} (hid : s.cmdId.toNat ≤ 0xFD) :
    acceptSend s = acceptWithParams .unicast s.cmdId s :=
  if_neg (by omega)

/-- R73, R87: with `p` staged, the checks pass and the frame is the one of `p`. -/
theorem acceptWithParams_staged {s : State} {p : List Byte} (hn : s.cmdNparams.toNat = p.length)
    (hp : p.length ≤ Config.maxParams) (hs : s.txParam.toList.take p.length = p.map some) (k : Kind) (id : Byte) :
    acceptWithParams k id s = respond .done (accept k id s) ∧
      (accept k id s).txFrame = buildFrame id s.cmdInstr p := by
  constructor
  · rw [acceptWithParams, if_neg (by omega), hn, firstUnwritten_eq_none hs]
  · rw [accept_txFrame, hn, stagedParams_eq hs]

theorem respond_done (s : State) : respond .done s = { s with hostReply := .done } := by
  simp [respond]

/-- R62, R63: the word of `WR <reg>, <imm8>` is that host write. -/
theorem step_wrWord {s : State} {j : HostIndex} {v : Byte} {rest : List Input}
    (h : s.inputs = .hostOp (wrWord j v) :: rest) : step s = .next (hostWrite j v (setInputs rest s)) := by
  rw [step_hostOp_write h (hostOpIsWrite_encodeHostOp true j v), wrWord, hostOpIndex_encodeHostOp,
    hostOpData_encodeHostOp]

theorem stepsFrom_wrWord {s : State} {j : HostIndex} {v : Byte} {rest : List Input} (n : Nat)
    (h : s.inputs = .hostOp (wrWord j v) :: rest) :
    stepsFrom (n + 1) s = stepsFrom n (hostWrite j v (setInputs rest s)) :=
  stepsFrom_succ (step_wrWord h)

theorem hostWrite_cmdId (v : Byte) (s : State) : hostWrite 0x002 v s = { s with cmdId := v, hostReply := .done } :=
  respond_done (setCmdId v s)

theorem hostWrite_cmdInstr (v : Byte) (s : State) :
    hostWrite 0x003 v s = { s with cmdInstr := v, hostReply := .done } :=
  respond_done (setCmdInstr v s)

theorem hostWrite_cmdNparams (v : Byte) (s : State) :
    hostWrite 0x004 v s = { s with cmdNparams := v, hostReply := .done } :=
  respond_done (setCmdNparams v s)

theorem hostWrite_txParam {i : Nat} (hi : i < Config.maxParams) (v : Byte) (s : State) :
    hostWrite (BitVec.ofNat 10 (0x100 + i)) v s =
      { s with txParam := s.txParam.set i (some v), hostReply := .done } := by
  have hj : (BitVec.ofNat 10 (0x100 + i)).toNat = 0x100 + i := by
    simp only [Config.maxParams] at hi
    rw [BitVec.toNat_ofNat, Nat.mod_eq_of_lt (by omega)]
  rw [hostWrite, regAt_txParam ⟨i, hi⟩ hj]
  exact respond_done (setTxParam ⟨i, hi⟩ v s)

/-- R64: the writes of TX_PARAM[i], TX_PARAM[i+1], ... leave the bytes written there, the entries below as they were, and
the rest of the block as it was. -/
theorem stepsFrom_wrParams {p : List Byte} {rest : List Input} {i : Nat} {s : State}
    (hp : i + p.length ≤ Config.maxParams) (h : s.inputs = (wrParams i p).map Input.hostOp ++ rest) :
    ∃ b r, (∀ n, stepsFrom (n + p.length) s =
        stepsFrom n { s with txParam := b, hostReply := r, inputs := rest }) ∧
      (∀ k, k < i → b[k]? = s.txParam[k]?) ∧ ∀ k, k < p.length → b[i + k]? = some p[k]? := by
  induction p generalizing i s with
  | nil =>
    have hs : s = { s with inputs := rest } := congrArg (fun l => { s with inputs := l }) h
    exact ⟨s.txParam, s.hostReply, fun n => congrArg (stepsFrom n) hs, fun _ _ => rfl, nofun⟩
  | cons v p ih =>
    simp only [List.length_cons] at hp ⊢
    have hi : i < Config.maxParams := by omega
    obtain ⟨b, r, hsteps, hbelow, hentries⟩ := ih (i := i + 1)
      (s := { s with
        txParam := s.txParam.set i (some v), hostReply := .done, inputs := (wrParams (i + 1) p).map .hostOp ++ rest })
      (by omega) rfl
    refine ⟨b, r, fun n => ?_, fun k hk => ?_, fun k hk => ?_⟩
    · rw [← Nat.add_assoc, stepsFrom_wrWord _ h, hostWrite_txParam hi]
      exact hsteps n
    · rw [hbelow k (by omega)]
      exact Vector.getElem?_set_ne hi (by omega)
    · cases k with
      | zero =>
        rw [Nat.add_zero, hbelow i (by omega)]
        exact Vector.getElem?_set_self hi
      | succ k =>
        rw [← Nat.add_assoc, Nat.add_right_comm]
        exact hentries k (by omega)

/-- `t` is `s` with `instr` and `p` staged: CMD_ID, the phase and the marks are as they were. -/
structure StagesOperands (instr : Byte) (p : List Byte) (s t : State) : Prop where
  cmdInstr : t.cmdInstr = instr
  cmdNparams : t.cmdNparams.toNat = p.length
  txParam : t.txParam.toList.take p.length = p.map some
  phase : t.phase = s.phase
  cmdId : t.cmdId = s.cmdId
  refused : t.refused = s.refused
  faulted : t.faulted = s.faulted

/-- R64: what the staging writes of both pseudo-instructions do, whatever the staging registers held. -/
theorem stepsFrom_stageWords {s : State} {instr : Byte} {p : List Byte} {rest : List Input}
    (hp : p.length ≤ Config.maxParams) (h : s.inputs = (stageWords instr p).map Input.hostOp ++ rest) :
    ∃ t, (∀ n, stepsFrom (n + p.length + 2) s = stepsFrom n t) ∧ StagesOperands instr p s t ∧ t.inputs = rest := by
  obtain ⟨b, r, hsteps, -, hentries⟩ := stepsFrom_wrParams (i := 0) (rest := rest)
    (s := { s with
      cmdInstr := instr, cmdNparams := BitVec.ofNat 8 p.length, hostReply := .done
      inputs := (wrParams 0 p).map .hostOp ++ rest })
    (by omega) rfl
  have hcount : (BitVec.ofNat 8 p.length).toNat = p.length := by
    simp only [Config.maxParams] at hp
    rw [BitVec.toNat_ofNat, Nat.mod_eq_of_lt (by omega)]
  have hstaged : b.toList.take p.length = p.map some :=
    take_eq_map_some hp fun k hk => by simpa using hentries k hk
  refine ⟨{ s with
    cmdInstr := instr, cmdNparams := BitVec.ofNat 8 p.length, txParam := b, hostReply := r, inputs := rest },
    fun n => ?_, ⟨rfl, hcount, hstaged, rfl, rfl, rfl, rfl⟩, rfl⟩
  rw [stepsFrom_wrWord _ h, hostWrite_cmdInstr, stepsFrom_wrWord _ rfl, hostWrite_cmdNparams]
  exact hsteps n

/-- R64: what the write of CMD_ID that SEND expands to first does. -/
theorem stepsFrom_wrCmdId {s : State} {id : Byte} {rest : List Input}
    (h : s.inputs = .hostOp (wrWord 0x002 id) :: rest) :
    ∃ t, (∀ n, stepsFrom (n + 1) s = stepsFrom n t) ∧ t.cmdId = id ∧ t.phase = s.phase ∧ t.refused = s.refused ∧
      t.faulted = s.faulted ∧ t.inputs = rest :=
  ⟨_, fun n => (stepsFrom_wrWord n h).trans (congrArg _ (hostWrite_cmdId _ _)), rfl, rfl, rfl, rfl, rfl⟩

/-- `t` is `s` with the exchange of a command of kind `k` started, its frame the one of `id`, `instr` and `p`. -/
structure StartsExchange (k : Kind) (id instr : Byte) (p : List Byte) (s t : State) : Prop where
  phase : t.phase = .txWait
  kind : t.kind = k
  txFrame : t.txFrame = buildFrame id instr p
  result : t.result = .none
  rspValid : t.rspValid = false
  cmdId : t.cmdId = s.cmdId
  refused : t.refused = s.refused
  faulted : t.faulted = s.faulted

/-- R73, R87: a command whose operands are staged is accepted with their frame. -/
theorem StagesOperands.startsExchange {instr : Byte} {p : List Byte} {s t : State} (h : StagesOperands instr p s t)
    (hp : p.length ≤ Config.maxParams) (k : Kind) (id : Byte) :
    StartsExchange k id instr p s (acceptWithParams k id t) ∧ (acceptWithParams k id t).inputs = t.inputs := by
  obtain ⟨hacc, hframe⟩ := acceptWithParams_staged h.cmdNparams hp h.txParam k id
  rw [hacc]
  refine ⟨⟨rfl, rfl, ?_, rfl, rfl, h.cmdId, ?_, ?_⟩, rfl⟩
  · rw [respond_txFrame, hframe, h.cmdInstr]
  · simp [h.refused]
  · simp [h.faulted]

/-- R64: the staging writes and then the CTRL write of a byte `v` start an exchange of kind `k` with `id`, where `v` is such
a command for the phase and the CMD_ID of `s`. -/
theorem stageWords_ctrl_startsExchange {s : State} {k : Kind} {id instr v : Byte} {p : List Byte} {rest : List Input}
    (hp : p.length ≤ Config.maxParams)
    (h : s.inputs = (stageWords instr p ++ [wrWord 0x000 v]).map Input.hostOp ++ rest)
    (hcmd : ∀ t : State, t.phase = s.phase → t.cmdId = s.cmdId → command v t = acceptWithParams k id t) :
    ∃ t, stepsFrom (p.length + 3) s = .next t ∧ StartsExchange k id instr p s t ∧ t.inputs = rest := by
  rw [List.map_append, List.append_assoc] at h
  obtain ⟨u, hsteps, hu, hi⟩ := stepsFrom_stageWords hp h
  have hrest : StagesOperands instr p s (setInputs rest u) := { hu with }
  have hctrl : hostWrite 0x000 v (setInputs rest u) = acceptWithParams k id (setInputs rest u) :=
    hcmd _ hrest.phase hrest.cmdId
  have hrun : stepsFrom (p.length + 3) s = .next (acceptWithParams k id (setInputs rest u)) := by
    rw [show p.length + 3 = 1 + p.length + 2 by omega, hsteps, ← hctrl]
    exact stepsFrom_wrWord 0 hi
  exact ⟨_, hrun, hrest.startsExchange hp k id⟩

/-- Settles O50: the staging writes, then the CTRL write that is accepted as BROADCAST. -/
theorem broadcastWordsStartTheExchange : Obligations.BroadcastWordsStartTheExchange := by
  intro s instr p rest hidle hp h
  obtain ⟨t, hrun, ht, hrest⟩ := stageWords_ctrl_startsExchange (k := .bcast) (id := Config.broadcastId) hp h
    fun u hu _ => command_broadcast (hu.trans hidle)
  exact ⟨t, hrun, ht.phase, ht.kind, ht.txFrame, ht.result, ht.rspValid, ht.cmdId, hrest, ht.refused, ht.faulted⟩

/-- Settles O49: the write of CMD_ID, the staging writes, then the CTRL write that is accepted as SEND. -/
theorem sendWordsStartTheExchange : Obligations.SendWordsStartTheExchange := by
  intro s id instr p rest hidle hid hp h
  obtain ⟨u, hfirst, hcmdId, hphase, hrefused, hfaulted, hi⟩ := stepsFrom_wrCmdId h
  obtain ⟨t, hrun, ht, hrest⟩ := stageWords_ctrl_startsExchange hp hi fun t htphase htid => by
    have htid : t.cmdId = id := htid.trans hcmdId
    rw [command_send (htphase.trans (hphase.trans hidle)), acceptSend_of_id (htid ▸ hid), htid]
  exact ⟨t, (hfirst _).trans hrun, ht.phase, ht.kind, ht.txFrame, ht.result, ht.rspValid, hrest,
    ht.refused.trans hrefused, ht.faulted.trans hfaulted⟩

end Sys2Proof.Machine
end

section
/-! SUPPORT. The checksum as a number (R67, R68): every property of it is one of the byte sum mod 256. -/

namespace Sys2Proof.Machine

@[simp] theorem byteSum_nil : byteSum [] = 0 := rfl

@[simp] theorem byteSum_cons (b : Byte) (P : List Byte) : byteSum (b :: P) = b.toNat + byteSum P := rfl

@[simp] theorem byteSum_append (P Q : List Byte) : byteSum (P ++ Q) = byteSum P + byteSum Q := by
  simp [byteSum]

theorem byteSum_perm {P Q : List Byte} (h : P.Perm Q) : byteSum P = byteSum Q :=
  (h.map BitVec.toNat).sum_nat

/-- The accumulator of R68, from any start: it holds the byte sum mod 256. -/
theorem foldl_add_eq_add_byteSum (P : List Byte) (acc : Byte) :
    P.foldl (fun acc b => acc + b) acc = acc + BitVec.ofNat 8 (byteSum P) := by
  induction P generalizing acc with
  | nil => simp
  | cons b P ih => simp [ih, BitVec.ofNat_add, BitVec.add_assoc]

theorem checksum_toNat (P : List Byte) : (checksum P).toNat = 0xFF - byteSum P % 256 := by
  rw [checksum, BitVec.toNat_not, BitVec.toNat_ofNat]

/-- R68: two payloads have one checksum exactly when their sums agree mod 256. -/
theorem checksum_eq_iff {P Q : List Byte} : checksum P = checksum Q ↔ byteSum P % 256 = byteSum Q % 256 := by
  rw [← BitVec.toNat_inj, checksum_toNat, checksum_toNat]
  omega

theorem checksum_perm {P Q : List Byte} (h : P.Perm Q) : checksum P = checksum Q :=
  checksum_eq_iff.mpr (congrArg (· % 256) (byteSum_perm h))

/-- R69: the checksum fills the byte sum up to 0xFF mod 256. -/
theorem byteSum_add_checksum (P : List Byte) : (byteSum P + (checksum P).toNat) % 256 = 0xFF := by
  rw [checksum_toNat]
  omega

/-- R50, R52: behind its two markers a frame is the covered bytes and their checksum. -/
theorem drop_two_buildFrame (id instr : Byte) (p : List Byte) :
    (buildFrame id instr p).drop 2 =
      ([id, lengthByte p.length, instr] ++ p) ++ [checksum ([id, lengthByte p.length, instr] ++ p)] := rfl

/-- A changed byte of the payload changes the checksum: the byte is less than 256. -/
theorem eq_of_checksum_append_cons_eq {pre post : List Byte} {a b : Byte}
    (h : checksum (pre ++ a :: post) = checksum (pre ++ b :: post)) : a = b := by
  simp only [checksum_eq_iff, byteSum_append, byteSum_cons] at h
  exact BitVec.eq_of_toNat_eq (by omega)

/-- +1 on one byte and -1 on another cancel mod 256, also where they wrap. -/
theorem checksum_add_one_sub_one (pre mid post : List Byte) (a b : Byte) :
    checksum (pre ++ (a + 1) :: mid ++ (b - 1) :: post) = checksum (pre ++ a :: mid ++ b :: post) := by
  have ha : (a + 1).toNat = (a.toNat + 1) % 256 := BitVec.toNat_add a 1
  have hb : (b - 1).toNat = (255 + b.toNat) % 256 := BitVec.toNat_sub b 1
  simp only [checksum_eq_iff, byteSum_append, byteSum_cons, ha, hb]
  omega

/-- R71: VALIDATE is equality with the checksum. -/
theorem checksumValid_iff {P : List Byte} {c : Byte} : checksumValid P c = true ↔ checksum P = c :=
  beq_iff_eq

theorem checksumValid_eq_false_iff {P : List Byte} {c : Byte} : checksumValid P c = false ↔ checksum P ≠ c :=
  beq_eq_false_iff_ne

/-- Settles O15: the accumulator from 0x00 holds the byte sum mod 256, and XOR with 0xFF is the complement. -/
theorem checksumIsTheAccumulator : Obligations.ChecksumIsTheAccumulator := by
  refine ⟨fun P => ?_, checksum_toNat, fun P Q => checksum_eq_iff.mpr⟩
  rw [foldl_add_eq_add_byteSum, zero_add]
  exact BitVec.xor_allOnes.symm

/-- Settles O16: a frame from offset 2 on is a payload followed by its checksum. -/
theorem sumWithChecksumIsFF : Obligations.SumWithChecksumIsFF := by
  refine ⟨byteSum_add_checksum, fun id instr p => ?_⟩
  rw [drop_two_buildFrame, ← byteSum, byteSum_append]
  exact byteSum_add_checksum ([id, lengthByte p.length, instr] ++ p)

/-- Settles O17: the byte sum ignores order, and a captured frame holds the payload as its first bytes. -/
theorem checksumIgnoresOrder : Obligations.ChecksumIgnoresOrder :=
  ⟨fun _ _ => checksum_perm, fun _ => congrArg checksum List.take_left⟩

/-- Settles O18: one changed byte changes one side of the equality that VALIDATE is, cancelling changes and reordering
change neither. -/
theorem validationCatchesOneChangedByte : Obligations.ValidationCatchesOneChangedByte := by
  simp only [Obligations.ValidationCatchesOneChangedByte, checksumValid_iff, checksumValid_eq_false_iff]
  refine ⟨fun P c => rfl, ?_, ?_, ?_, ?_⟩
  · rintro pre post a b _ rfl hne h
    exact hne (eq_of_checksum_append_cons_eq h.symm)
  · rintro P _ d rfl hne
    exact hne
  · rintro pre mid post a b _ rfl
    exact checksum_add_one_sub_one pre mid post a b
  · rintro P Q _ hperm rfl
    exact (checksum_perm hperm).symm

end Sys2Proof.Machine
end

section
/-! SUPPORT. The frame as R50, R51 and R74 lay it out, and SEND in IDLE (R73): accepted with its operands staged, or refused
by the first check that fails. -/

namespace Sys2Proof.Machine

/-- R50, R74: a frame byte for byte. -/
theorem buildFrame_eq (id instr : Byte) (p : List Byte) :
    buildFrame id instr p = [0xFF, 0xFF, id, lengthByte p.length, instr] ++ p ++
      [checksum ([id, lengthByte p.length, instr] ++ p)] := rfl

/-- Settles O19: the layout is `buildFrame_eq`, and the length byte does not wrap. -/
theorem frameHasTheTablesLayout : Obligations.FrameHasTheTablesLayout := by
  intro id instr p hp
  have hlen : (lengthByte p.length).toNat = p.length + 2 := lengthByte_toNat hp
  refine ⟨lengthByte p.length, checksum ([id, lengthByte p.length, instr] ++ p), buildFrame_eq id instr p, hlen, ?_,
    buildFrame_length id instr p, ?_⟩
  · rw [checksum_toNat, byteSum_append, ← byteSum]
    simp only [byteSum_cons, byteSum_nil]
    omega
  · rw [buildFrame_length, hlen]
    omega

/-- R73, R87: the next state of a command that is accepted with `p` staged. -/
theorem acceptWithParams_eq_of_staged {s : State} {p : List Byte} (hn : s.cmdNparams.toNat = p.length)
    (hp : p.length ≤ Config.maxParams) (hs : ∀ i, i < p.length → s.txParam[i]? = some p[i]?) (k : Kind) (id : Byte) :
    acceptWithParams k id s = { s with
      txFrame := buildFrame id s.cmdInstr p
      kind := k
      result := .none
      rspValid := false
      phase := .txWait
      hostReply := .done } := by
  obtain ⟨hacc, hframe⟩ := acceptWithParams_staged hn hp (take_eq_map_some hp hs) k id
  rw [hacc, respond_done, ← hframe]
  rfl

/-- R73: SEND with legal operands. -/
theorem command_send_of_staged {s : State} {p : List Byte} (hidle : s.phase = .idle) (hid : s.cmdId.toNat ≤ 0xFD)
    (hn : s.cmdNparams.toNat = p.length) (hp : p.length ≤ Config.maxParams)
    (hs : ∀ i, i < p.length → s.txParam[i]? = some p[i]?) :
    command 0x01 s = { s with
      txFrame := buildFrame s.cmdId s.cmdInstr p
      kind := .unicast
      result := .none
      rspValid := false
      phase := .txWait
      hostReply := .done } := by
  rw [command_send hidle, acceptSend_of_id hid, acceptWithParams_eq_of_staged hn hp hs]

/-- Settles O21: `exec .send` is the command, and the frame's bytes are `buildFrame_eq`. -/
theorem sendIsAccepted : Obligations.SendIsAccepted :=
  fun _ _ hidle hid hn hp hs => congrArg Host.Outcome.next (command_send_of_staged hidle hid hn hp hs)

theorem acceptSend_badId {s : State} (hid : 0xFE ≤ s.cmdId.toNat) : acceptSend s = refuse (.sendBadId s.cmdId) s :=
  if_pos hid

theorem acceptWithParams_tooMany {s : State} (hn : Config.maxParams < s.cmdNparams.toNat) (k : Kind) (id : Byte) :
    acceptWithParams k id s = refuse (.tooManyParams s.cmdNparams) s :=
  if_pos hn

/-- The lowest unwritten entry is the one that is unwritten with none unwritten below it. -/
theorem firstUnwritten_eq_some {b : Vector (Option Byte) Config.maxParams} {n : Nat} {i : Fin Config.maxParams}
    (hi : i.val < n) (hnone : b[i] = none) (hlow : ∀ k : Fin Config.maxParams, k < i → b[k] ≠ none) :
    firstUnwritten b n = some i.val := by
  refine List.findIdx?_eq_some_iff_getElem.mpr ⟨by simp [hi], ?_, fun k hk => ?_⟩
  · simpa using hnone
  · have := hlow ⟨k, by omega⟩ hk
    simpa using this

theorem acceptWithParams_unwritten {s : State} (hn : s.cmdNparams.toNat ≤ Config.maxParams) {i : Nat}
    (hi : firstUnwritten s.txParam s.cmdNparams.toNat = some i) (k : Kind) (id : Byte) :
    acceptWithParams k id s = refuse (.unwrittenTxParam i) s := by
  rw [acceptWithParams, if_neg (by omega), hi]

/-- Settles O22, check by check. -/
theorem sendRefusalsInOrder : Obligations.SendRefusalsInOrder := by
  intro s hidle
  have hexec : exec .send s = .next (acceptSend s) := congrArg Host.Outcome.next (command_send hidle)
  rw [hexec]
  refine ⟨fun hid => ?_, fun hid hn => ?_, fun hid hn i hi hnone hlow => ?_⟩
  · rw [acceptSend_badId hid, refuse_eq]
  · rw [acceptSend_of_id hid, acceptWithParams_tooMany hn, refuse_eq]
  · rw [acceptSend_of_id hid, acceptWithParams_unwritten hn (firstUnwritten_eq_some hi hnone hlow), refuse_eq]

end Sys2Proof.Machine
end

section
/-! SUPPORT. The step on each answer to a SEND's requests (R75 to R82). -/

namespace Sys2Proof.Machine

theorem txDone_unicast {s : State} (hk : s.kind = .unicast) : txDone s = awaitHeader s := by
  simp only [txDone, hk]

theorem txDone_bcast {s : State} (hk : s.kind = .bcast) : txDone s = finish .ok s := by
  simp only [txDone, hk]

/-- R75, R82: a failed request, whichever it was. -/
theorem step_fail {s : State} {rest : List Input} (hb : s.phase ≠ .idle) (hi : s.inputs = .answer .fail :: rest) :
    step s = .next (finish .transportFault (setInputs rest s)) :=
  (step_answer hi).trans (deliver_fail hb)

/-- R75: the write of a SEND's frame is complete. -/
theorem step_txDone_unicast {s : State} {rest : List Input} (hp : s.phase = .txWait) (hk : s.kind = .unicast)
    (hi : s.inputs = .answer .ok :: rest) : step s = .next (awaitHeader (setInputs rest s)) :=
  (step_answer hi).trans ((deliver_ok (s := setInputs rest s) hp).trans (congrArg _ (txDone_unicast hk)))

theorem step_header {s : State} {bytes : List Byte} {rest : List Input} (hp : s.phase = .hdrWait)
    (hl : bytes.length ≤ 4) (hi : s.inputs = .answer (.data bytes) :: rest) :
    step s = .next (hdrAnswer bytes (setInputs rest s)) :=
  (step_answer hi).trans (deliver_header hp hl)

theorem step_body {s : State} {bytes : List Byte} {rest : List Input} (hp : s.phase = .bodyWait)
    (hl : bytes.length ≤ s.latLen.toNat) (hi : s.inputs = .answer (.data bytes) :: rest) :
    step s = .next (bodyAnswer bytes (setInputs rest s)) :=
  (step_answer hi).trans (deliver_body hp hl)

/-- R77: a header with both markers is latched. -/
theorem hdrAnswer_packetBytes (id len : Byte) (body : List Byte) (s : State) :
    hdrAnswer (packetBytes id len body) s = latchHeader id len s := rfl

/-- R76: any other header ends the exchange. -/
theorem hdrAnswer_of_ne_packetBytes {bytes : List Byte} (h : ∀ id len body, bytes ≠ packetBytes id len body)
    (s : State) : hdrAnswer bytes s = finish .commError s := by
  obtain ⟨id, len, body, hb, -⟩ | ⟨-, ht⟩ := hdrAnswer_cases bytes s
  · exact absurd hb (h id len body)
  · exact ht

/-- R78, R79: a short body, and any body where L < 2. -/
theorem bodyAnswer_short {bytes : List Byte} {s : State} (h : bytes.length < s.latLen.toNat ∨ s.latLen.toNat < 2) :
    bodyAnswer bytes s = finish .commError s := by
  obtain ⟨hlong, hroom, -⟩ | ⟨-, ht⟩ := bodyAnswer_cases bytes s
  · omega
  · exact ht

/-- R80, R81: a whole body is stored exactly when its checksum matches. -/
theorem bodyAnswer_whole {s : State} {err c : Byte} {q : List Byte} (hl : s.latLen.toNat = q.length + 2) :
    bodyAnswer (err :: q ++ [c]) s =
      if checksum ([s.latId, s.latLen, err] ++ q) = c then finish .ok (storeReply (err :: q ++ [c]) s)
      else finish .commError s := by
  obtain ⟨hcode, hparams, hsum⟩ := body_parts err c q
  rw [bodyAnswer, if_neg (by simp [hl]), if_neg (by omega), coveredBytes, hcode, hparams, hsum]
  simp only [checksumValid_iff]

/-- R81: entry i of the stored reply is parameter i, and the entries beyond the parameters keep what they held. -/
theorem storedReply_entry (old : Vector Byte Config.maxParams) (q : List Byte) (k : Fin Config.maxParams) :
    (storedReply old q)[k] = if h : k.val < q.length then q[k.val] else old[k] := by
  rw [storedReply_getElem]
  split
  · exact List.getD_eq_getElem _ _ _
  · exact List.getD_eq_default _ _ (by omega)

/-- R81: what a whole body leaves in the result registers. -/
theorem storeReply_whole {s : State} {q : List Byte} (hl : s.latLen.toNat = q.length + 2) (err c : Byte) :
    storeReply (err :: q ++ [c]) s = { s with
      rspId := s.latId
      rspError := err
      rspNparams := BitVec.ofNat 8 q.length
      rxParam := storedReply s.rxParam q
      rspValid := true } := by
  obtain ⟨hcode, hparams, -⟩ := body_parts err c q
  have hcount : s.latLen - 2 = BitVec.ofNat 8 q.length := by bv_omega
  rw [storeReply, hcode, hparams, hcount]

/-- Settles O28: the write that completes by `step_txDone_unicast`, the one that fails by `step_fail`. -/
theorem unicastWriteAnswer : Obligations.UnicastWriteAnswer :=
  fun _ _ hp hk => ⟨fun hi => ⟨_, step_txDone_unicast hp hk hi, rfl, rfl⟩, step_fail (by simp [hp])⟩

/-- Settles O34: `step_fail` in both receive phases. -/
theorem failedReceiveIsTransportFault : Obligations.FailedReceiveIsTransportFault := by
  intro s rest hp
  refine step_fail ?_
  obtain hp | hp := hp <;> simp [hp]

/-- Settles O31: FF FF id len is a packet's first four bytes. -/
theorem goodHeaderIsLatched : Obligations.GoodHeaderIsLatched :=
  fun _ id len _ hp hi =>
    ⟨_, (step_header hp (by simp) hi).trans (congrArg _ (hdrAnswer_packetBytes id len [] _)), rfl, rfl⟩

/-- Settles O30: no packet starts with fewer than four bytes or without both markers. -/
theorem badHeaderIsCommError : Obligations.BadHeaderIsCommError := by
  intro s bs rest hp hi hl hbad
  refine ⟨_, (step_header hp hl hi).trans (congrArg _ (hdrAnswer_of_ne_packetBytes ?_ _)), rfl, rfl⟩
  rintro id len body rfl
  obtain hshort | h0 | h1 := hbad
  · exact absurd hshort (by simp [packetBytes])
  · exact h0 rfl
  · exact h1 rfl

/-- Settles O32: the step is the body answer, and `bodyAnswer_short` says what that is. -/
theorem shortOrImpossibleBodyIsCommError : Obligations.ShortOrImpossibleBodyIsCommError :=
  fun s _ rest hp hi hl hshort =>
    (step_body hp hl hi).trans (congrArg _ (bodyAnswer_short (s := setInputs rest s) hshort))

/-- Settles O33: `bodyAnswer_whole` on each side of its checksum, and the stored registers by `storeReply_whole`. -/
theorem wholeBodyIsValidatedAndStored : Obligations.WholeBodyIsValidatedAndStored := by
  intro s err c q rest hp hi hl
  have hl' : (setInputs rest s).latLen.toNat = q.length + 2 := hl
  rw [step_body hp (by simp [hl]) hi]
  refine ⟨fun hne => ?_, fun heq => ⟨_, congrArg _ ((bodyAnswer_whole hl').trans (if_pos heq)), ?_⟩⟩
  · exact congrArg _ ((bodyAnswer_whole hl').trans (if_neg hne))
  · rw [storeReply_whole hl']
    refine ⟨rfl, fun k => ?_⟩
    exact storedReply_entry s.rxParam q k

end Sys2Proof.Machine
end

section
/-! SUPPORT. No answer reads the staging registers (R12, R86). -/

namespace Sys2Proof.Machine

/-- `s` with other bytes in its staging registers. -/
def setStaging (id instr n : Byte) (p : Vector (Option Byte) Config.maxParams) (s : State) : State :=
  { s with cmdId := id, cmdInstr := instr, cmdNparams := n, txParam := p }

/-- The outcome with `f` applied to its next state. -/
def mapNext (f : State → State) : Outcome → Outcome
  | .next t => .next (f t)
  | .fault e => .fault e
  | .refused e => .refused e

section
variable (id instr n : Byte) (p : Vector (Option Byte) Config.maxParams) (s : State)

theorem txDone_setStaging : txDone (setStaging id instr n p s) = setStaging id instr n p (txDone s) := by
  obtain ⟨hk, ht⟩ | ⟨hk, ht⟩ := txDone_cases s <;> rw [ht]
  · exact txDone_unicast hk
  · exact txDone_bcast hk

theorem hdrAnswer_setStaging (bytes : List Byte) :
    hdrAnswer bytes (setStaging id instr n p s) = setStaging id instr n p (hdrAnswer bytes s) := by
  obtain ⟨lid, len, body, rfl, -⟩ | ⟨h, ht⟩ := hdrAnswer_cases bytes s
  · rfl
  · rw [ht, hdrAnswer_of_ne_packetBytes h]
    rfl

theorem bodyAnswer_setStaging (bytes : List Byte) :
    bodyAnswer bytes (setStaging id instr n p s) = setStaging id instr n p (bodyAnswer bytes s) := by
  simp only [bodyAnswer, apply_ite (setStaging id instr n p)]
  rfl

/-- R86: an answer has the same outcome whatever the staging registers hold, and leaves them as they are. -/
theorem deliver_setStaging (a : Answer) :
    deliver a (setStaging id instr n p s) = mapNext (setStaging id instr n p) (deliver a s) := by
  have hphase : (setStaging id instr n p s).phase = s.phase := rfl
  cases hp : s.phase <;> cases a
  case txWait.ok =>
    rw [deliver_ok hp, deliver_ok (hphase.trans hp), txDone_setStaging]
    rfl
  case hdrWait.data bytes =>
    obtain hl | hl := Nat.lt_or_ge 4 bytes.length
    · rw [deliver_header_overlong hp hl, deliver_header_overlong (hphase.trans hp) hl]
      rfl
    · rw [deliver_header hp hl, deliver_header (hphase.trans hp) hl, hdrAnswer_setStaging]
      rfl
  case bodyWait.data bytes =>
    obtain hl | hl := Nat.lt_or_ge s.latLen.toNat bytes.length
    · rw [deliver_body_overlong hp hl, deliver_body_overlong (hphase.trans hp) hl]
      rfl
    · rw [deliver_body hp hl, deliver_body (hphase.trans hp) hl, bodyAnswer_setStaging]
      rfl
  all_goals
    simp only [deliver, hphase, hp]
    rfl

end

/-- Settles O46: taking the answer off the list leaves the staging registers, and delivering it does not read them. -/
theorem stagingDoesNotReachTheExchange : Obligations.StagingDoesNotReachTheExchange := by
  intro s a rest id instr n p hi
  have hstep : step (setStaging id instr n p s) = mapNext (setStaging id instr n p) (step s) := by
    rw [step_answer hi, step_answer (s := setStaging id instr n p s) hi]
    exact deliver_setStaging id instr n p (setInputs rest s) a
  exact ⟨fun t ht => hstep.trans (congrArg _ ht), fun f hf => hstep.trans (congrArg _ hf)⟩

end Sys2Proof.Machine
end

section
/-! SUPPORT. The rule's function of a SEND's three answers (R83, R85), and the exchange that computes it, request by
request. -/

namespace Sys2Proof.Machine

/-- A header that is no packet's start is short or lacks a marker, as the rule's function asks. -/
theorem malformed_of_ne_packetBytes {bytes : List Byte} (h : ∀ id len body, bytes ≠ packetBytes id len body) :
    bytes.length < 4 ∨ bytes.getD 0 0 ≠ 0xFF ∨ bytes.getD 1 0 ≠ 0xFF := by
  by_contra hgood
  simp only [not_or, not_lt, not_not] at hgood
  obtain ⟨hl, h0, h1⟩ := hgood
  match bytes, hl with
  | m0 :: m1 :: id :: len :: body, _ =>
    obtain rfl : m0 = 0xFF := h0
    obtain rfl : m1 = 0xFF := h1
    exact h id len body rfl

theorem sendRequests_malformed {bytes : List Byte} (h : ∀ id len body, bytes ≠ packetBytes id len body) :
    sendRequests .ok (.data bytes) = 2 :=
  if_pos (malformed_of_ne_packetBytes h)

theorem sendRequests_packetBytes (id len : Byte) (body : List Byte) :
    sendRequests .ok (.data (packetBytes id len body)) = 3 := by
  simp [sendRequests, packetBytes]

/-- R83: the write is always requested. -/
theorem sendRequests_pos (a h : Answer) : 0 < sendRequests a h := by
  unfold sendRequests
  split
  · split <;> decide
  · decide
  · decide

theorem sendResult_malformed {bytes : List Byte} (h : ∀ id len body, bytes ≠ packetBytes id len body) (b : Answer) :
    sendResult .ok (.data bytes) b = (.commError, none) :=
  if_pos (malformed_of_ne_packetBytes h)

theorem sendResult_bodyFail (id len : Byte) :
    sendResult .ok (.data (packetBytes id len [])) .fail = (.transportFault, none) := by
  simp [sendResult, packetBytes]

theorem sendResult_bodyShort {len : Byte} {d : List Byte} (h : d.length < len.toNat ∨ len.toNat < 2) (id : Byte) :
    sendResult .ok (.data (packetBytes id len [])) (.data d) = (.commError, none) := by
  rw [sendResult, if_neg (by simp [packetBytes])]
  exact if_pos h

theorem sendResult_bodyWhole {len : Byte} {q : List Byte} (hl : len.toNat = q.length + 2) (id err c : Byte) :
    sendResult .ok (.data (packetBytes id len [])) (.data (err :: q ++ [c])) =
      if checksum ([id, len, err] ++ q) = c then (.ok, some (id, err, q)) else (.commError, none) := by
  simp [sendResult, packetBytes, hl]

/-- A body of at least two bytes has an error byte and a checksum (R54). -/
theorem exists_body_parts {d : List Byte} (h : 2 ≤ d.length) : ∃ err q c, d = err :: q ++ [c] := by
  match d, h with
  | err :: x :: d, _ =>
    exact ⟨err, (x :: d).dropLast, (x :: d).getLast (by simp), by
      rw [List.cons_append, List.dropLast_concat_getLast]⟩

/-- `t` is the end of a SEND whose frame was `frame`, with the outcome `r` of the rule's function and the moves `rest`
left. -/
structure SendEnds (frame : List Byte) (rest : List Input) (r : Result × Option (Byte × Byte × List Byte))
    (t : State) : Prop where
  phase : t.phase = .idle
  inputs : t.inputs = rest
  result : t.result = r.1
  rspValid : t.rspValid = r.2.isSome
  txFrame : t.txFrame = frame
  reply : ∀ id err q, r.2 = some (id, err, q) →
    t.rspId = id ∧ t.rspError = err ∧ t.rspNparams.toNat = q.length ∧
      ∀ k : Fin Config.maxParams, k.val < q.length → q[k.val]? = some t.rxParam[k]

/-- R97: every failing exit of a SEND. -/
theorem finish_sendEnds {s : State} (hv : s.rspValid = false) (r : Result) :
    SendEnds s.txFrame s.inputs (r, none) (finish r s) :=
  ⟨rfl, rfl, rfl, hv, rfl, nofun⟩

/-- R81: the exit that stores a reply. -/
theorem finish_storeReply_sendEnds {s : State} {q : List Byte} (hl : s.latLen.toNat = q.length + 2) (err c : Byte) :
    SendEnds s.txFrame s.inputs (.ok, some (s.latId, err, q)) (finish .ok (storeReply (err :: q ++ [c]) s)) := by
  rw [storeReply_whole hl]
  refine ⟨rfl, rfl, rfl, rfl, rfl, ?_⟩
  rintro id err q ⟨⟩
  refine ⟨rfl, rfl, ?_, fun k hk => ?_⟩
  · show (BitVec.ofNat 8 q.length).toNat = q.length
    have := s.latLen.isLt
    rw [BitVec.toNat_ofNat, Nat.mod_eq_of_lt (by omega)]
  · exact (List.getElem?_eq_getElem hk).trans
      (congrArg some ((storedReply_entry s.rxParam q k).trans (dif_pos hk)).symm)

/-- R78 to R81: a body answer of at most L bytes ends the SEND as the rule's function says. -/
theorem bodyAnswer_sendEnds {s : State} {d : List Byte} (hv : s.rspValid = false) (hd : d.length ≤ s.latLen.toNat) :
    SendEnds s.txFrame s.inputs (sendResult .ok (.data (packetBytes s.latId s.latLen [])) (.data d))
      (bodyAnswer d s) := by
  by_cases hshort : d.length < s.latLen.toNat ∨ s.latLen.toNat < 2
  · rw [bodyAnswer_short hshort, sendResult_bodyShort hshort]
    exact finish_sendEnds hv _
  · obtain ⟨err, q, c, rfl⟩ := exists_body_parts (d := d) (by omega)
    have hlen : (err :: q ++ [c]).length = q.length + 2 := by simp
    have hl : s.latLen.toNat = q.length + 2 := by omega
    rw [bodyAnswer_whole hl, sendResult_bodyWhole hl]
    split
    · exact finish_storeReply_sendEnds hl err c
    · exact finish_sendEnds hv _

/-- R78 to R82: from BODY_WAIT, an allowed answer ends the SEND as the rule's function says. -/
theorem bodyWait_sendEnds {s : State} {b : Answer} {rest : List Input} (hp : s.phase = .bodyWait)
    (hv : s.rspValid = false) (hb : Answer.allowed (.rxRecv s.latLen.toNat) b = true)
    (hi : s.inputs = .answer b :: rest) :
    ∃ t, stepsFrom 1 s = .next t ∧
      SendEnds s.txFrame rest (sendResult .ok (.data (packetBytes s.latId s.latLen [])) b) t := by
  cases b with
  | ok => cases hb
  | fail =>
    rw [sendResult_bodyFail]
    exact ⟨_, stepsFrom_succ (step_fail (by simp [hp]) hi), finish_sendEnds (s := setInputs rest s) hv _⟩
  | data d =>
    have hd : d.length ≤ s.latLen.toNat := of_decide_eq_true hb
    exact ⟨_, stepsFrom_succ (step_body hp hd hi), bodyAnswer_sendEnds (s := setInputs rest s) hv hd⟩

/-- R76, R77, R82: the header answer, and the body answer where one is requested, end the SEND as the rule's function
says. -/
theorem hdrWait_sendEnds {s : State} {h b : Answer} {rest : List Input} {n : Nat} (hp : s.phase = .hdrWait)
    (hv : s.rspValid = false) (hh : Answer.allowed (.rxRecv 4) h = true)
    (hb : ∀ bs, h = .data bs → Answer.allowed (.rxRecv (bs.getD 3 0).toNat) b = true)
    (hn : sendRequests .ok h = n + 1) (hi : s.inputs = [Input.answer h, .answer b].take n ++ rest) :
    ∃ t, stepsFrom n s = .next t ∧ SendEnds s.txFrame rest (sendResult .ok h b) t := by
  have hends : ∀ r, SendEnds s.txFrame rest (r, none) (finish r (setInputs rest s)) :=
    finish_sendEnds (s := setInputs rest s) hv
  cases h with
  | ok => cases hh
  | fail =>
    obtain rfl : n = 1 := by simpa [sendRequests] using hn.symm
    exact ⟨_, stepsFrom_succ (step_fail (by simp [hp]) hi), hends _⟩
  | data bs =>
    have hl : bs.length ≤ 4 := of_decide_eq_true hh
    obtain ⟨id, len, body, rfl, -⟩ | ⟨hbad, -⟩ := hdrAnswer_cases bs s
    · obtain rfl : body = [] := by
        simp only [packetBytes, List.length_cons] at hl
        exact List.eq_nil_of_length_eq_zero (by omega)
      obtain rfl : n = 2 := by simpa [sendRequests_packetBytes] using hn.symm
      have hstep := (step_header hp hl hi).trans (congrArg _ (hdrAnswer_packetBytes id len [] _))
      obtain ⟨t, hrun, ht⟩ :=
        bodyWait_sendEnds (s := latchHeader id len (setInputs (.answer b :: rest) s)) (b := b) rfl hv (hb _ rfl) rfl
      exact ⟨t, (stepsFrom_succ hstep).trans hrun, ht⟩
    · obtain rfl : n = 1 := by simpa [sendRequests_malformed hbad] using hn.symm
      rw [sendResult_malformed hbad]
      have hstep := (step_header hp hl hi).trans (congrArg _ (hdrAnswer_of_ne_packetBytes hbad _))
      exact ⟨_, stepsFrom_succ hstep, hends _⟩

/-- R75, R82: from TX_WAIT, a SEND run on allowed answers ends as the rule's function says. -/
theorem txWait_sendEnds {s : State} {a h b : Answer} {rest : List Input} (hp : s.phase = .txWait)
    (hk : s.kind = .unicast) (hv : s.rspValid = false) (hall : answersAllowed a h b)
    (hi : s.inputs = [Input.answer a, .answer h, .answer b].take (sendRequests a h) ++ rest) :
    ∃ t, stepsFrom (sendRequests a h) s = .next t ∧ SendEnds s.txFrame rest (sendResult a h b) t := by
  obtain ⟨ha, hh, hb⟩ := hall
  cases a with
  | data bs => cases ha
  | fail =>
    exact ⟨_, stepsFrom_succ (step_fail (by simp [hp]) hi), finish_sendEnds (s := setInputs rest s) hv _⟩
  | ok =>
    obtain ⟨n, hn⟩ := Nat.exists_eq_add_one.mpr (sendRequests_pos .ok h)
    rw [hn] at hi ⊢
    obtain ⟨t, hrun, ht⟩ := hdrWait_sendEnds
      (s := awaitHeader (setInputs ([Input.answer h, .answer b].take n ++ rest) s)) rfl hv hh hb hn rfl
    exact ⟨t, (stepsFrom_succ (step_txDone_unicast hp hk hi)).trans hrun, ht⟩

/-- Settles O47: the CTRL write starts the exchange in TX_WAIT, and `txWait_sendEnds` runs it. -/
theorem sendExchangeIsTheRulesFunction : Obligations.SendExchangeIsTheRulesFunction := by
  intro s p a h b rest hidle hid hn hp hs hall hi
  have hstart := (step_command hi).trans (congrArg _ (command_send_of_staged (s := setInputs _ s) hidle hid hn hp hs))
  obtain ⟨t, hrun, ht⟩ := txWait_sendEnds (rest := rest) (s := { setInputs _ s with
    txFrame := buildFrame s.cmdId s.cmdInstr p
    kind := .unicast
    result := .none
    rspValid := false
    phase := .txWait
    hostReply := .done }) rfl rfl rfl hall rfl
  rw [Nat.add_comm]
  exact ⟨t, (stepsFrom_succ hstart).trans hrun, ht.phase, ht.inputs, ht.result, ht.rspValid, ht.txFrame, ht.reply⟩

end Sys2Proof.Machine
end

section
/-! SUPPORT. BROADCAST: accepted with its operands staged or refused by the first check that fails (R87), the answer to
its one request (R88 to R90), and the whole exchange (R91). -/

namespace Sys2Proof.Machine

/-- R87: BROADCAST with legal operands. -/
theorem command_broadcast_of_staged {s : State} {p : List Byte} (hidle : s.phase = .idle)
    (hn : s.cmdNparams.toNat = p.length) (hp : p.length ≤ Config.maxParams)
    (hs : ∀ i, i < p.length → s.txParam[i]? = some p[i]?) :
    command 0x02 s = { s with
      txFrame := buildFrame Config.broadcastId s.cmdInstr p
      kind := .bcast
      result := .none
      rspValid := false
      phase := .txWait
      hostReply := .done } := by
  rw [command_broadcast hidle, acceptBroadcast, acceptWithParams_eq_of_staged hn hp hs]

/-- Settles O23: `exec .broadcast` is the command, and the frame's bytes are `buildFrame_eq`. -/
theorem broadcastIsAccepted : Obligations.BroadcastIsAccepted :=
  fun _ _ hidle hn hp hs => congrArg Host.Outcome.next (command_broadcast_of_staged hidle hn hp hs)

/-- Settles O24, check by check. -/
theorem broadcastRefusalsInOrder : Obligations.BroadcastRefusalsInOrder := by
  intro s hidle
  have hexec : exec .broadcast s = .next (acceptWithParams .bcast Config.broadcastId s) :=
    congrArg Host.Outcome.next (command_broadcast hidle)
  rw [hexec]
  refine ⟨fun hn => ?_, fun hn i hi hnone hlow => ?_⟩
  · rw [acceptWithParams_tooMany hn, refuse_eq]
  · rw [acceptWithParams_unwritten hn (firstUnwritten_eq_some hi hnone hlow), refuse_eq]

/-- R88: the write of a BROADCAST's frame is complete. -/
theorem step_txDone_bcast {s : State} {rest : List Input} (hp : s.phase = .txWait) (hk : s.kind = .bcast)
    (hi : s.inputs = .answer .ok :: rest) : step s = .next (finish .ok (setInputs rest s)) :=
  (step_answer hi).trans ((deliver_ok (s := setInputs rest s) hp).trans (congrArg _ (txDone_bcast hk)))

/-- Settles O29: the write that completes by `step_txDone_bcast`, the one that fails by `step_fail`. -/
theorem broadcastWriteAnswer : Obligations.BroadcastWriteAnswer :=
  fun _ _ hp hk => ⟨step_txDone_bcast hp hk, step_fail (by simp [hp])⟩

/-- R89: a BROADCAST in flight waits for the write of its frame, since the invariant allows only a SEND to receive. -/
theorem phase_of_bcast_busy {s : State} (hs : s.Inv) (hb : s.phase ≠ .idle) (hk : s.kind = .bcast) :
    s.phase = .txWait := by
  cases hp : s.phase with
  | idle => exact absurd hp hb
  | txWait => rfl
  | hdrWait => cases hk.symm.trans (hs.receiving (.inl hp))
  | bodyWait => cases hk.symm.trans (hs.receiving (.inr hp))

/-- R90: an answer that is taken finishes a BROADCAST, and never with COMM_ERROR. -/
theorem deliver_bcast_finishes {a : Answer} {s t : State} (hp : s.phase = .txWait) (hk : s.kind = .bcast)
    (h : deliver a s = .next t) : t = finish .ok s ∨ t = finish .transportFault s := by
  obtain ⟨-, -, rfl⟩ | ⟨-, -, rfl⟩ | ⟨bytes, hrecv, -⟩ | ⟨bytes, hrecv, -⟩ := deliver_next_cases h
  · exact .inl (txDone_bcast hk)
  · exact .inr rfl
  · cases hp.symm.trans hrecv
  · cases hp.symm.trans hrecv

/-- Settles O45: the BROADCAST is in TX_WAIT, where each kind of step keeps it, finishes it or resets the block. -/
theorem broadcastNeverReceives : Obligations.BroadcastNeverReceives := by
  intro s t hs h hb hk
  have hp : s.phase = .txWait := phase_of_bcast_busy hs hb hk
  obtain ⟨hresult, hvalid⟩ := hs.busy hb
  refine ⟨request_eq_some_iff.mpr (.inl ⟨hp, rfl⟩), ?_⟩
  obtain hkeep | ⟨rest, hidle, -⟩ | ⟨a, rest, -, hd⟩ | ⟨rest, hi, rfl⟩ := step_transition h
  · exact .inl ⟨hkeep.phase.trans hp, hkeep.kind.trans hk, hkeep.result.trans hresult⟩
  · exact absurd hidle hb
  · obtain rfl | rfl := deliver_bcast_finishes (s := setInputs rest s) hp hk hd
    · exact .inr ⟨rfl, hvalid, .inl rfl⟩
    · exact .inr ⟨rfl, hvalid, .inr (.inl rfl)⟩
  · exact .inr ⟨rfl, rfl, .inr (.inr ⟨rfl, rest, hi⟩)⟩

/-- R91: the step on the answer to a BROADCAST's one request. -/
theorem step_bcast_answer {s : State} {a : Answer} {rest : List Input} (hp : s.phase = .txWait) (hk : s.kind = .bcast)
    (ha : a = .ok ∨ a = .fail) (hi : s.inputs = .answer a :: rest) :
    step s = .next (finish (if a = .ok then .ok else .transportFault) (setInputs rest s)) := by
  obtain rfl | rfl := ha
  · exact step_txDone_bcast hp hk hi
  · exact step_fail (by simp [hp]) hi

/-- Settles O48: the CTRL write starts the exchange in TX_WAIT, and `step_bcast_answer` finishes it. -/
theorem broadcastExchangeIsTheRulesFunction : Obligations.BroadcastExchangeIsTheRulesFunction := by
  intro s p a rest hidle hn hp hs ha hi
  have hstart := (step_command hi).trans
    (congrArg _ (command_broadcast_of_staged (s := setInputs _ s) hidle hn hp hs))
  exact ⟨_, (stepsFrom_succ hstart).trans (stepsFrom_succ (step_bcast_answer rfl rfl ha rfl)),
    rfl, rfl, rfl, rfl, rfl⟩

end Sys2Proof.Machine
end

section
/-! SUPPORT. R96: a host access is answered by `respond` on a block that carries the marks it had, so a mark is set only by
the reply; and where the reply sets one, that block is the one the access found. -/

namespace Sys2Proof.Machine

/-- R27: the marks stay clear under a reply that is neither a refusal nor a read without a value. -/
theorem respond_clean_iff {r : HostReply} {s : State} :
    (respond r s).Clean ↔ s.Clean ∧ r.isRefusal = false ∧ r.isNoValue = false := by
  simp only [State.Clean, respond_refused, respond_faulted, Bool.or_eq_false_iff]
  exact and_and_and_comm

theorem respond_done_clean {s : State} (hs : s.Clean) : (respond .done s).Clean :=
  respond_clean_iff.mpr ⟨hs, rfl, rfl⟩

/-- R96: the reply that sets a mark names the refusal or the read without a value, and sets that one mark only. -/
theorem respond_sets_one_mark {r : HostReply} {s : State} (hs : s.Clean) (ht : ¬ (respond r s).Clean) :
    (∃ q, (respond r s).hostReply = .refusal q ∧ (respond r s).faulted = false) ∨
      (∃ f, (respond r s).hostReply = .noValue f ∧ (respond r s).refused = false) := by
  cases r with
  | noAccess => exact absurd (respond_clean_iff.mpr ⟨hs, rfl, rfl⟩) ht
  | done => exact absurd (respond_done_clean hs) ht
  | value v => exact absurd (respond_clean_iff.mpr ⟨hs, rfl, rfl⟩) ht
  | refusal q => exact .inl ⟨q, rfl, by simp [hs.2]⟩
  | noValue f => exact .inr ⟨f, rfl, by simp [hs.1]⟩

/-- R48, R73, R87, R96: a CTRL write that is not refused sets no mark. -/
theorem command_refuses_or_clean (v : Byte) {s : State} (hs : s.Clean) :
    (∃ r, command v s = refuse r s) ∨ (command v s).Clean := by
  obtain hr | ⟨-, -, -, ⟨-, -, h⟩ | ⟨-, h⟩⟩ := command_cases v s
  · exact .inl hr
  · exact .inr (h ▸ respond_done_clean hs)
  · exact .inr (h ▸ respond_done_clean hs)

/-- R31, R34, R96: a host write that is not refused sets no mark. -/
theorem hostWrite_refuses_or_clean (j : HostIndex) (v : Byte) {s : State} (hs : s.Clean) :
    (∃ r, hostWrite j v s = refuse r s) ∨ (hostWrite j v s).Clean := by
  obtain ⟨-, h⟩ | ⟨-, h⟩ | ⟨-, h⟩ | ⟨-, h⟩ | ⟨i, -, h⟩ | h := hostWrite_cases j v s
  · exact h ▸ command_refuses_or_clean v hs
  · exact .inr (h ▸ respond_done_clean hs)
  · exact .inr (h ▸ respond_done_clean hs)
  · exact .inr (h ▸ respond_done_clean hs)
  · exact .inr (h ▸ respond_done_clean hs)
  · exact .inl ⟨_, h⟩

/-- R96: a step from unset marks leaves them unset, or is a host access that only answers the host. -/
theorem step_clean_or_responds {s t : State} (h : step s = .next t) (hs : s.Clean) :
    t.Clean ∨ ∃ m rest r, s.inputs = m :: rest ∧ ((∃ w, m = .hostOp w) ∨ ∃ v, m = .command v) ∧
      t = respond r (setInputs rest s) := by
  obtain ⟨-, rfl⟩ | ⟨m, rest, hi, hmove⟩ := step_cases h
  · exact .inl hs
  · have hrest : (setInputs rest s).Clean := hs
    obtain ⟨v, hm, rfl⟩ | ⟨w, hm, hword⟩ | ⟨a, -, hd⟩ | ⟨a, -, rfl⟩ | ⟨-, rfl⟩ := hmove
    · obtain ⟨r, hr⟩ | hclean := command_refuses_or_clean v hrest
      · exact .inr ⟨m, rest, .refusal r, hi, .inr ⟨v, hm⟩, hr⟩
      · exact .inl hclean
    · obtain ⟨j, v, -, rfl⟩ | ⟨j, -, ht⟩ | ht := hword
      · obtain ⟨r, hr⟩ | hclean := hostWrite_refuses_or_clean j v hrest
        · exact .inr ⟨m, rest, .refusal r, hi, .inl ⟨w, hm⟩, hr⟩
        · exact .inl hclean
      · exact .inr ⟨m, rest, _, hi, .inl ⟨w, hm⟩, ht⟩
      · exact .inr ⟨m, rest, .refusal .badHostWord, hi, .inl ⟨w, hm⟩, ht⟩
    · obtain ⟨-, hrefused, hfaulted⟩ := deliver_keeps_frame_and_marks hd
      exact .inl ⟨hrefused.trans hs.1, hfaulted.trans hs.2⟩
    · exact .inl hrest
    · exact .inl hrest

/-- Settles O40: the step only answers the host (`step_clean_or_responds`), and the answer sets the mark it names. -/
theorem settingAMarkChangesNothingElse : Obligations.SettingAMarkChangesNothingElse := by
  intro s t h hs ht
  obtain hclean | ⟨m, rest, r, hi, haccess, rfl⟩ := step_clean_or_responds h hs
  · exact absurd hclean ht
  · exact ⟨⟨m, rest, hi, haccess, rfl⟩, rfl, respond_sets_one_mark (s := setInputs rest s) hs ht⟩

end Sys2Proof.Machine
end

section
/-! SUPPORT. The reset event: the table of R26 in whatever state it finds (R108, R110), the exchange it aborts, and the
late answer that reaches no exchange (R109). -/

namespace Sys2Proof.Machine

theorem resetBlock_txParam_unwritten (s : State) (i : Fin Config.maxParams) : (resetBlock s).txParam[i] = none := by
  simp

theorem resetBlock_status (s : State) : (resetBlock s).status = 0x00 := by
  simp [State.status, State.busy, Result.code]

/-- R26: after reset STATUS reads 0x00. -/
theorem exec_hostRd_status_resetBlock (s : State) :
    exec (.hostRd 0x001) (resetBlock s) = .next { resetBlock s with hostReply := .value 0x00 } := by
  rw [exec_hostRd_status, resetBlock_status]

/-- R26: after reset the result registers and RX_PARAM read 0x00, whatever reply is still stored. -/
theorem exec_hostRd_result_resetBlock (s : State) {j : HostIndex}
    (hj : (0x005 ≤ j.toNat ∧ j.toNat ≤ 0x007) ∨ (0x200 ≤ j.toNat ∧ j.toNat ≤ 0x2FC)) :
    exec (.hostRd j) (resetBlock s) = .next { resetBlock s with hostReply := .value 0x00 } :=
  exec_hostRd_value (hostRead_result_of_not_valid rfl hj)

/-- Settles O3: the step is `resetBlock`, whose stored fields and marks are the table's by definition and whose reads
are the lemmas above. -/
theorem resetEventGivesTheTable : Obligations.ResetEventGivesTheTable := by
  intro s rest hi
  exact ⟨resetBlock (setInputs rest s), step_reset hi, rfl, rfl, rfl, rfl, rfl, rfl, resetBlock_txParam_unwritten _, rfl,
    rfl, exec_hostRd_status_resetBlock _, fun _ => exec_hostRd_result_resetBlock _, rfl, rfl⟩

/-- Settles O5: `step_reset` aborts the exchange and keeps the moves still to come, and `step_lateAnswer` drops the late
answer in the state after it as in every other. -/
theorem resetAbortsAndLateAnswerIsNotDelivered : Obligations.ResetAbortsAndLateAnswerIsNotDelivered := by
  refine ⟨fun s a rest _ hi => ?_, fun _ _ _ => step_lateAnswer⟩
  exact ⟨resetBlock (setInputs (.lateAnswer a :: rest) s), step_reset hi, rfl, rfl, rfl, step_lateAnswer rfl⟩

end Sys2Proof.Machine
end

section
/-! SUPPORT. A host write other than to CTRL, as one update of the staging registers and one reply for every index (R31,
R34), and the word of WR CTRL (R63). -/

namespace Sys2Proof.Machine

/-- The word of WR CTRL, v is the host write of v to CTRL, which is Command(v). -/
theorem step_ctrlWord {s : State} {v : Byte} {rest : List Input}
    (h : s.inputs = .hostOp (BitVec.ofNat 19 (0x40000 + v.toNat)) :: rest) :
    step s = .next (command v (setInputs rest s)) := by
  rw [← encodeHostOp_ctrl] at h
  exact step_wrWord h

/-- Settles O14: both moves are Command(v) on the state without the move. -/
theorem ctrlByteIsTheWriteWord : Obligations.CtrlByteIsTheWriteWord :=
  fun s v rest => (step_command rfl).trans
    (step_ctrlWord (s := { s with inputs := .hostOp (BitVec.ofNat 19 (0x40000 + v.toNat)) :: rest }) rfl).symm

/-- TX_PARAM after a host write of `v` at index `j`. -/
def writtenTxParam (j : HostIndex) (v : Byte) (b : Vector (Option Byte) Config.maxParams) :
    Vector (Option Byte) Config.maxParams :=
  Vector.ofFn fun i => if j.toNat = 0x100 + i.val then some v else b[i]

theorem writtenTxParam_getElem (j : HostIndex) (v : Byte) (b : Vector (Option Byte) Config.maxParams)
    (i : Fin Config.maxParams) :
    (writtenTxParam j v b)[i] = if j.toNat = 0x100 + i.val then some v else b[i] := by
  simp [writtenTxParam]

theorem writtenTxParam_of_outside {j : HostIndex} (hj : j.toNat < 0x100 ∨ 0x1FD ≤ j.toNat) (v : Byte)
    (b : Vector (Option Byte) Config.maxParams) : writtenTxParam j v b = b := by
  ext k hk : 1
  have hk' : k < 253 := hk
  exact (writtenTxParam_getElem j v b ⟨k, hk⟩).trans (if_neg (by simp only; omega))

theorem writtenTxParam_entry {j : HostIndex} {i : Fin Config.maxParams} (hj : j.toNat = 0x100 + i.val) (v : Byte)
    (b : Vector (Option Byte) Config.maxParams) : writtenTxParam j v b = b.set i (some v) := by
  ext k hk : 1
  refine (writtenTxParam_getElem j v b ⟨k, hk⟩).trans ?_
  rw [Vector.getElem_set, hj]
  simp

/-- What a host write other than to CTRL is answered: done at the staging registers, refused elsewhere (R31, R34). -/
def writeReply (j : HostIndex) : HostReply :=
  if (0x002 ≤ j.toNat ∧ j.toNat ≤ 0x004) ∨ (0x100 ≤ j.toNat ∧ j.toNat ≤ 0x1FC) then .done
  else .refusal (.badAccess j)

theorem writeReply_staging {j : HostIndex}
    (hj : (0x002 ≤ j.toNat ∧ j.toNat ≤ 0x004) ∨ (0x100 ≤ j.toNat ∧ j.toNat ≤ 0x1FC)) : writeReply j = .done :=
  if_pos hj

theorem writeReply_elsewhere {j : HostIndex}
    (hj : j.toNat = 0x001 ∨ (0x005 ≤ j.toNat ∧ j.toNat ≤ 0x0FF) ∨ 0x1FD ≤ j.toNat) :
    writeReply j = .refusal (.badAccess j) :=
  if_neg (by omega)

/-- A write is never answered as a read without a value. -/
theorem isNoValue_writeReply (j : HostIndex) : (writeReply j).isNoValue = false := by
  unfold writeReply
  split <;> rfl

/-- Where a host write can go: CTRL, a staging register, or an index that takes no write (R30). -/
theorem writeIndex_cases (j : HostIndex) :
    j = 0x000 ∨ j = 0x002 ∨ j = 0x003 ∨ j = 0x004 ∨ (∃ i : Fin Config.maxParams, j.toNat = 0x100 + i.val) ∨
      (j.toNat = 0x001 ∨ (0x005 ≤ j.toNat ∧ j.toNat ≤ 0x0FF) ∨ 0x1FD ≤ j.toNat) := by
  by_cases ht : 0x100 ≤ j.toNat ∧ j.toNat < 0x1FD
  · exact .inr (.inr (.inr (.inr (.inl ⟨⟨j.toNat - 0x100, by simp only [Config.maxParams]; omega⟩,
      by simp only; omega⟩))))
  · bv_omega

/-- R31, R34: every host write other than to CTRL, as one update and one reply. -/
theorem hostWrite_eq_setStaging {j : HostIndex} (hj : j ≠ 0x000) (v : Byte) (s : State) :
    hostWrite j v s = respond (writeReply j)
      (setStaging (if j = 0x002 then v else s.cmdId) (if j = 0x003 then v else s.cmdInstr)
        (if j = 0x004 then v else s.cmdNparams) (writtenTxParam j v s.txParam) s) := by
  have hne (h : j.toNat < 2 ∨ 4 < j.toNat) : j ≠ 0x002 ∧ j ≠ 0x003 ∧ j ≠ 0x004 := by bv_omega
  obtain h0 | rfl | rfl | rfl | ⟨i, hi⟩ | hro := writeIndex_cases j
  · exact absurd h0 hj
  · rw [writtenTxParam_of_outside (by decide)]
    rfl
  · rw [writtenTxParam_of_outside (by decide)]
    rfl
  · rw [writtenTxParam_of_outside (by decide)]
    rfl
  · have hi' : i.val < 253 := i.isLt
    obtain ⟨h2, h3, h4⟩ := hne (by omega)
    rw [writtenTxParam_entry hi, writeReply_staging (by omega), if_neg h2, if_neg h3, if_neg h4, hostWrite,
      regAt_txParam i hi]
    rfl
  · have hrefused : hostWrite j v s = refuse (.badAccess j) s :=
      (Host.Outcome.next.inj (exec_hostWr_refused hro v s)).trans (refuse_eq _ s).symm
    obtain ⟨h2, h3, h4⟩ := hne (by omega)
    rw [hrefused, writtenTxParam_of_outside (by omega), writeReply_elsewhere hro, if_neg h2, if_neg h3, if_neg h4]
    rfl

/-- Settles O6: the fields of the one update `hostWrite_eq_setStaging`. -/
theorem hostWriteChangesOneRegister : Obligations.HostWriteChangesOneRegister := by
  intro j v s hj
  refine ⟨_, congrArg Host.Outcome.next (hostWrite_eq_setStaging hj v s), rfl, rfl, rfl,
    writtenTxParam_getElem j v s.txParam, fun hst => ?_, ?_, rfl, rfl, rfl, rfl, rfl, rfl, rfl, rfl, rfl, rfl, rfl, rfl⟩
  · rw [writeReply_staging hst]
    exact ⟨rfl, Bool.or_false _⟩
  · rw [respond_faulted, isNoValue_writeReply]
    exact Bool.or_false _

end Sys2Proof.Machine
end

section
/-! SUPPORT. The wire packets as instructions: the write of the frame in flight (R75, R88), and the two takings of a status
packet (R54, R76 to R81). -/

namespace Sys2Proof.Machine

/-- The frame in flight, written, is the transport's answer ok (R38). -/
theorem frameWritten_inFlight {frame : List Byte} {s : State} (hp : s.phase = .txWait) (hf : s.txFrame = frame) :
    frameWritten frame s = .next (txDone s) :=
  (if_pos hp).trans (if_pos hf)

/-- Settles O25: the packet is the frame in flight, and its completed write leads a SEND to its header wait. -/
theorem pktInstructionCompletesTheWrite : Obligations.PktInstructionCompletesTheWrite :=
  fun _ _ _ _ hp hk hf => (frameWritten_inFlight hp hf).trans (congrArg _ (txDone_unicast hk))

/-- Settles O26: the packet is the frame in flight, and its completed write finishes a BROADCAST. -/
theorem pktBroadcastFinishesOk : Obligations.PktBroadcastFinishesOk :=
  fun _ _ _ hp hk hf => (frameWritten_inFlight hp hf).trans (congrArg _ (txDone_bcast hk))

/-- R77: in HDR_WAIT a packet has its header latched. -/
theorem exec_pktStatus_hdrWait {s : State} (hp : s.phase = .hdrWait) (id len : Byte) (body : List Byte) :
    exec (.pktStatus id len body) s = .next (latchHeader id len s) := by
  simp only [exec, execPktStatus, hp]
  exact congrArg _ (hdrAnswer_packetBytes id len [] s)

/-- R54: in BODY_WAIT a packet gives as much of its body as is asked for. -/
theorem exec_pktStatus_bodyWait {s : State} (hp : s.phase = .bodyWait) (id len : Byte) (body : List Byte) :
    exec (.pktStatus id len body) s = .next (bodyAnswer (body.take s.latLen.toNat) s) := by
  simp only [exec, execPktStatus, hp]

/-- Settles O37, receive by receive. -/
theorem pktStatusFrame : Obligations.PktStatusFrame := by
  intro id len body s
  obtain ⟨hp, h⟩ | ⟨hp, h⟩ | ⟨-, h⟩ := execPktStatus_cases id len body s
  · exact ⟨latchHeader id len s, h, rfl, rfl, rfl, rfl, rfl, rfl, rfl, rfl, rfl, rfl, fun hne => absurd hp hne,
      fun _ => ⟨rfl, rfl, rfl, rfl, rfl⟩, by simp [hp]⟩
  · refine ⟨_, h, ?_⟩
    obtain ⟨-, -, -, ht⟩ | ⟨-, ht⟩ := bodyAnswer_cases (body.take s.latLen.toNat) s <;> rw [ht] <;>
      exact ⟨rfl, rfl, rfl, rfl, rfl, rfl, rfl, rfl, rfl, rfl, fun _ => ⟨rfl, rfl⟩, fun hne => absurd hp hne,
        by simp [hp]⟩
  · exact ⟨s, h, rfl, rfl, rfl, rfl, rfl, rfl, rfl, rfl, rfl, rfl, fun _ => ⟨rfl, rfl⟩,
      fun _ => ⟨rfl, rfl, rfl, rfl, rfl⟩, fun _ => rfl⟩

/-- R59, R78 to R81: a body of the latched length is stored exactly where the packet is legal. -/
theorem bodyAnswer_eq_ite_statusLegal {body : List Byte} {s : State} (hl : body.length = s.latLen.toNat) :
    bodyAnswer body s =
      if statusLegal s.latId s.latLen body = true then finish .ok (storeReply body s) else finish .commError s := by
  simp only [statusLegal, Bool.and_eq_true, decide_eq_true_eq]
  obtain ⟨-, hroom, hvalid, ht⟩ | ⟨hbad, ht⟩ := bodyAnswer_cases body s
  · rw [ht, if_pos ⟨hroom, hvalid⟩]
  · rw [ht, if_neg]
    rintro ⟨hroom, hvalid⟩
    obtain hshort | hshort | hinvalid := hbad
    · omega
    · omega
    · cases hvalid.symm.trans hinvalid

/-- R81: what the stored reply of a whole body holds, in terms of the body's bytes. -/
theorem storeReply_of_length {body : List Byte} {s : State} (hl : body.length = s.latLen.toNat)
    (hroom : 2 ≤ s.latLen.toNat) :
    body[0]? = some (storeReply body s).rspError ∧ (storeReply body s).rspNparams.toNat = s.latLen.toNat - 2 ∧
      ∀ k : Fin Config.maxParams, k.val < s.latLen.toNat - 2 →
        body[k.val + 1]? = some (storeReply body s).rxParam[k] := by
  obtain ⟨err, q, c, rfl⟩ := exists_body_parts (hl ▸ hroom)
  have hlen : s.latLen.toNat = q.length + 2 := by simpa using hl.symm
  obtain ⟨-, -, hcount, hentries⟩ := (finish_storeReply_sendEnds hlen err c).reply _ _ _ rfl
  have hparams : s.latLen.toNat - 2 = q.length := by omega
  rw [hparams]
  refine ⟨rfl, hcount, fun k hk => ?_⟩
  rw [List.cons_append, List.getElem?_cons_succ, List.getElem?_append_left hk]
  exact hentries k hk

/-- Settles O36: the header is latched, and the body is stored where the packet is legal. -/
theorem pktStatusEndsTheSend : Obligations.PktStatusEndsTheSend := by
  intro id len body s hl hp
  have htake : body.take len.toNat = body := List.take_of_length_le hl.le
  have hbody := exec_pktStatus_bodyWait (s := latchHeader id len s) rfl id len body
  rw [latchHeader_latLen, htake, bodyAnswer_eq_ite_statusLegal (s := latchHeader id len s) hl,
    latchHeader_latId, latchHeader_latLen] at hbody
  refine ⟨_, _, exec_pktStatus_hdrWait hp id len body, rfl, hbody, ?_⟩
  cases hlegal : statusLegal id len body with
  | false => exact ⟨rfl, fun _ => rfl, nofun⟩
  | true =>
    obtain ⟨hroom, -⟩ := Bool.and_eq_true_iff.mp hlegal
    exact ⟨rfl, nofun, fun _ => ⟨rfl, rfl, rfl,
      storeReply_of_length (s := latchHeader id len s) hl (of_decide_eq_true hroom)⟩⟩

end Sys2Proof.Machine
end

section
/-! SUPPORT. The moves that change the phase (R43, R48, R83). -/

namespace Sys2Proof.Machine

/-- R48, R73, R87: a CTRL write that changes the phase is an accepted 0x01 or 0x02. -/
theorem command_changes_phase {v : Byte} {s : State} (h : s.phase ≠ (command v s).phase) :
    (v = 0x01 ∨ v = 0x02) ∧ s.phase = .idle ∧ (command v s).phase = .txWait ∧ (command v s).result = .none ∧
      (command v s).rspValid = false := by
  obtain ⟨r, hr⟩ | ⟨hidle, -, -, ⟨hv, -, hc⟩ | ⟨hv, hc⟩⟩ := command_cases v s
  · rw [hr] at h
    exact absurd rfl h
  · rw [hc]
    exact ⟨.inl hv, hidle, rfl, rfl, rfl⟩
  · rw [hc]
    exact ⟨.inr hv, hidle, rfl, rfl, rfl⟩

/-- R31, R34: a host write other than to CTRL keeps the phase. -/
theorem hostWrite_phase {j : HostIndex} (hj : j ≠ 0x000) (v : Byte) (s : State) :
    (hostWrite j v s).phase = s.phase := by
  rw [hostWrite_eq_setStaging hj]
  rfl

/-- R43, R83: an answer finishes the exchange or issues the next receive. -/
theorem deliver_phase_cases {a : Answer} {s t : State} (h : deliver a s = .next t) :
    (s.phase = .txWait ∧ t.phase = .hdrWait ∧ s.kind = .unicast ∧ a = .ok) ∨
      (s.phase = .hdrWait ∧ t.phase = .bodyWait ∧ ∃ id len, a = .data [0xFF, 0xFF, id, len] ∧ t.latId = id ∧
        t.latLen = len) ∨
      t.phase = .idle := by
  obtain ⟨hp, ha, rfl⟩ | ⟨-, -, rfl⟩ | ⟨bytes, hp, rfl, hl, rfl⟩ | ⟨bytes, -, -, -, rfl⟩ := deliver_next_cases h
  · obtain ⟨hk, ht⟩ | ⟨-, ht⟩ := txDone_cases s <;> rw [ht]
    · exact .inl ⟨hp, rfl, hk, ha⟩
    · exact .inr (.inr rfl)
  · exact .inr (.inr rfl)
  · obtain ⟨id, len, body, rfl, ht⟩ | ⟨-, ht⟩ := hdrAnswer_cases bytes s <;> rw [ht]
    · obtain rfl : body = [] := by
        simp only [packetBytes, List.length_cons] at hl
        exact List.eq_nil_of_length_eq_zero (by omega)
      exact .inr (.inl ⟨hp, rfl, id, len, rfl, rfl, rfl⟩)
    · exact .inr (.inr rfl)
  · obtain ⟨-, -, -, ht⟩ | ⟨-, ht⟩ := bodyAnswer_cases bytes s <;> rw [ht] <;> exact .inr (.inr rfl)

/-- Settles O41, move by move. -/
theorem requestsComeInOrder : Obligations.RequestsComeInOrder := by
  intro s t h hne
  obtain ⟨-, rfl⟩ | ⟨m, rest, hi, hmove⟩ := step_cases h
  · exact absurd rfl hne
  · obtain ⟨v, rfl, rfl⟩ | ⟨w, rfl, hword⟩ | ⟨a, rfl, hd⟩ | ⟨a, -, rfl⟩ | ⟨rfl, rfl⟩ := hmove
    · obtain ⟨hv, hidle, hphase, hresult, hvalid⟩ := command_changes_phase (s := setInputs rest s) hne
      exact .inl ⟨hidle, hphase, hresult, hvalid, v, rest, hv, .inl hi⟩
    · obtain ⟨j, v, rfl, rfl⟩ | ⟨j, -, rfl⟩ | rfl := hword
      · by_cases hj : j = 0x000
        · subst hj
          obtain ⟨hv, hidle, hphase, hresult, hvalid⟩ := command_changes_phase (s := setInputs rest s) hne
          rw [encodeHostOp_ctrl] at hi
          exact .inl ⟨hidle, hphase, hresult, hvalid, v, rest, hv, .inr hi⟩
        · exact absurd (hostWrite_phase hj v (setInputs rest s)).symm hne
      · exact absurd rfl hne
      · exact absurd rfl hne
    · obtain ⟨hp, hphase, hk, rfl⟩ | ⟨hp, hphase, id, len, rfl, hid, hlen⟩ | hphase := deliver_phase_cases hd
      · exact .inr (.inl ⟨hp, hphase, hk, rest, hi⟩)
      · exact .inr (.inr (.inl ⟨hp, hphase, id, len, rest, hi, hid, hlen⟩))
      · exact .inr (.inr (.inr ⟨hphase, .inl ⟨a, rest, hi⟩⟩))
    · exact absurd rfl hne
    · exact .inr (.inr (.inr ⟨rfl, .inr ⟨rest, hi⟩⟩))

end Sys2Proof.Machine
end

section
/-! SUPPORT. Words and frames of the test vectors, read as the instructions they encode (R50, R63). -/

namespace Sys2Proof.Machine

/-- Settles O54: each word is the encoding of its instruction, so it decodes to it. -/
theorem wordsAreReadRight : Obligations.WordsAreReadRight := by
  have hdec := decodeOfEncodeIsTheInstruction
  exact ⟨hdec .send rfl, hdec .broadcast rfl, hdec (.hostWr 0x002 0x01) rfl, hdec (.hostWr 0x101 0x01) rfl,
    hdec (.hostRd 0x001) rfl, hdec (.hostRd 0x200) rfl,
    hdec (.pktInstruction 0x01 0x04 [0x02, 0x2B, 0x01, 0xCC]) rfl,
    hdec (.pktBroadcast 0x04 [0x03, 0x03, 0x01, 0xF6]) rfl,
    hdec (.pktStatus 0x01 0x03 [0x00, 0x20, 0xDB]) rfl⟩

end Sys2Proof.Machine
end
